-- ==== Sys2Proof/Word.lean ====
section
/-! DEFINITION. The words of KCORE: bytes, 64-bit lanes, and the 5 by 5 array of lanes.

A lane is an unsigned 64-bit word with bit 0 the least significant (00_scope.md R14); the state is exactly 25 lanes
indexed by column `x` and row `y` in 0..4, never resized (10_state.md R20). The shape is in the type: a `Lanes` cannot
hold more or fewer than 25 lanes. -/

namespace Sys2Proof

/-- A byte: a command word, a byte of MSG, OUT or of the state's byte view (R14). -/
abbrev Byte := BitVec 8

/-- One lane: "one 64-bit word of the 25-word (5×5) permutation state" (R18). -/
abbrev Lane := BitVec 64

/-- Five like things, one for each coordinate 0..4. -/
structure Five (α : Type) where
  at0 : α
  at1 : α
  at2 : α
  at3 : α
  at4 : α
  deriving DecidableEq, Repr, Inhabited

/-- The entry at a coordinate. -/
def Five.get {α : Type} (v : Five α) (i : Fin 5) : α :=
  match i with
  | 0 => v.at0
  | 1 => v.at1
  | 2 => v.at2
  | 3 => v.at3
  | 4 => v.at4

/-- The five values of a function of the coordinate. -/
def Five.ofFn {α : Type} (f : Fin 5 → α) : Five α := ⟨f 0, f 1, f 2, f 3, f 4⟩

/-- The 25 lanes, held as five rows (same `y`) of five lanes (10_state.md R20, 00_scope.md R19). -/
structure Lanes where
  rows : Five (Five Lane)
  deriving DecidableEq, Repr, Inhabited

/-- `A[x,y]`: the lane at column `x`, row `y`. -/
def Lanes.lane (A : Lanes) (x y : Fin 5) : Lane := (A.rows.get y).get x

/-- All 25 lanes at once from a function of the coordinates: the `for all x, y` assignment of 00_scope.md R15, whose
right-hand sides are all taken before any lane is written. -/
def Lanes.ofFn (f : Fin 5 → Fin 5 → Lane) : Lanes :=
  ⟨Five.ofFn fun y => Five.ofFn fun x => f x y⟩

end Sys2Proof
end

