-- ==== Sys2Proof/Syntax.lean ====
section
/-! DEFINITION. The commands of KCORE and the six modes: one constructor of `Instr` per row of spec/opcode_table.json. -/

namespace Sys2Proof

/-- The six mode records, in the source's order (30_encoding.md R85, 43_sponge_controller.md R180). -/
inductive Mode where
  | sha3_224
  | sha3_256
  | sha3_384
  | sha3_512
  | shake128
  | shake256
  deriving DecidableEq, Repr, Inhabited

/-- The commands. `ir` is the 5-bit round index as the word carries it (30_encoding.md R84); WellFormed says which
values are legal. -/
inductive Instr where
  /-- NOP, 44_host_commands.md R230. -/
  | nop
  /-- CLR, 44_host_commands.md R231. -/
  | clr
  /-- INIT, 43_sponge_controller.md R190. -/
  | init
  /-- THETA, 41_permutation_steps.md R130. -/
  | theta
  /-- RHO, 41_permutation_steps.md R133. -/
  | rho
  /-- PI, 41_permutation_steps.md R136. -/
  | pi
  /-- CHI, 41_permutation_steps.md R139. -/
  | chi
  /-- KECCAKF (alias PERMUTE, R101), 42_round_permute.md R165. -/
  | keccakf
  /-- IOTA ir, 41_permutation_steps.md R142. -/
  | iota (ir : BitVec 5)
  /-- ROUND ir, 42_round_permute.md R164. -/
  | round (ir : BitVec 5)
  /-- HASH.SHA3_224, 43_sponge_controller.md R210. -/
  | hashSha3_224
  /-- HASH.SHA3_256, R211. -/
  | hashSha3_256
  /-- HASH.SHA3_384, R212. -/
  | hashSha3_384
  /-- HASH.SHA3_512, R213. -/
  | hashSha3_512
  /-- HASH.SHAKE128, R214. -/
  | hashShake128
  /-- HASH.SHAKE256, R215. -/
  | hashShake256
  deriving DecidableEq, Repr

end Sys2Proof
end

