-- ==== Sys2Proof/Config.lean ====
section
/-! DEFINITION. What an implementation fixes (the three open parameters) and the values the spec leaves open.

Every constant here that has no body is opaque: nothing can evaluate it or prove a value of it, so a statement holds
whatever it is. -/

namespace Sys2Proof

/-- The open parameters of 00_scope.md R10; `none` is infinity, and for `lenW` an unbounded register. -/
structure Config.Params where
  /-- MAX_MLEN: the largest message length accepted, and the size of MSG (20_memory.md R51). -/
  maxMlen : Option Nat
  /-- MAX_OLEN: the largest output length accepted, and the size of OUT (20_memory.md R52). -/
  maxOlen : Option Nat
  /-- LEN_W: the width of MLEN, OLEN and OCNT. -/
  lenW : Option Nat
  deriving DecidableEq, Repr, Inhabited

/-- `n` is over a limit; with an infinite limit it never is (00_scope.md R10). -/
def Config.exceeds (n : Nat) (limit : Option Nat) : Bool :=
  match n, limit with
  | 0, _ => false
  | _ + 1, none => false
  | k + 1, some m => decide (m < k + 1)

/-- `n` is a value of a register of this width (`none`: unbounded). -/
def Config.fits (n : Nat) (width : Option Nat) : Bool :=
  match width with
  | none => true
  | some w => decide (n < 2 ^ w)

/-- A limit is below the register's range: `2^LEN_W > max(MAX_MLEN, MAX_OLEN)` when those are finite. -/
def Config.limitFits (limit width : Option Nat) : Bool :=
  match limit with
  | none => true
  | some m => Config.fits m width

/-- The constraints of 00_scope.md R10 and the table of 92_eei_decisions.md: MAX_OLEN at least 64; every finite limit
below `2^LEN_W`; LEN_W unbounded only when both limits are infinite.

DESIGN CHOICE (log 5): beside an infinite limit R10 leaves a finite LEN_W open, and every one that the finite limits allow is
legal here, also one below 7 bits, with which the `WR OLEN, 64` of SHA3_512 (30_encoding.md R100) does not fit. -/
def Config.legal (p : Config.Params) : Bool :=
  !Config.exceeds 64 p.maxOlen
    && Config.limitFits p.maxMlen p.lenW && Config.limitFits p.maxOlen p.lenW
    && (p.lenW.isSome || (p.maxMlen.isNone && p.maxOlen.isNone))

/-- The least width that a finite limit leaves for LEN_W. -/
def Config.leastWidth (limit : Option Nat) : Nat :=
  match limit with
  | none => 0
  | some m => if m = 0 then 0 else m.log2 + 1

/-- The nearest legal parameters: MAX_OLEN raised to 64 and LEN_W to the least width the limits leave. A legal choice
stays as it is, so every legal choice is one that `Config.params` may be. -/
def Config.legalize (p : Config.Params) : Config.Params :=
  let maxOlen := p.maxOlen.map (max 64)
  let least := max (Config.leastWidth p.maxMlen) (Config.leastWidth maxOlen)
  { maxMlen := p.maxMlen
    maxOlen := maxOlen
    lenW :=
      match p.maxMlen, maxOlen with
      | none, none => p.lenW
      | _, _ => some (max least (p.lenW.getD 0)) }

/-- The implementation's own choice, before it is made legal: any values at all. -/
opaque Config.rawParams : Config.Params

/-- The parameters of the implementation: some legal choice, and any (00_scope.md R10, 92_eei_decisions.md D8; DESIGN CHOICE,
log 5). -/
def Config.params : Config.Params := Config.legalize Config.rawParams

/-- The unspecified lane of linear index `k` at draw `d`: after reset and after a HASH completes (93 U1, U2; DESIGN CHOICE,
logs 1, 2). -/
opaque Config.freeLane (d k : Nat) : Lane

/-- The unspecified content of the MODE latch at draw `d` (93 U3; DESIGN CHOICE, log 3). -/
opaque Config.freeMode (d : Nat) : Mode

/-- The unspecified content of BLK at draw `d` (93 U3; DESIGN CHOICE, log 3). -/
opaque Config.freeBlk (d : Nat) : Nat

/-- The unspecified content of RND at draw `d` (93 U3; DESIGN CHOICE, log 3). -/
opaque Config.freeRnd (d : Nat) : Fin 24

/-- The unspecified byte of MSG at address `a` since the reset numbered `era` (93 U4, U5; DESIGN CHOICE, log 4). -/
opaque Config.freeMsg (era a : Nat) : Byte

/-- The unspecified byte of OUT at address `a`, of draw `d` (93 U4, U6; DESIGN CHOICE, logs 4, 13). -/
opaque Config.freeOut (d a : Nat) : Byte

/-- While BUSY, whether a host access that need not wait comes before the controller's next step: the spec gives no
time (70_reset_and_hazards.md R295; DESIGN CHOICE, log 7). -/
opaque Config.hostFirst (d : Nat) : Bool

/-- Whether a reset event that is still to come lands before the next step: "It may occur at any time" (R280; DESIGN CHOICE, log 8). -/
opaque Config.resetNow (d : Nat) : Bool

end Sys2Proof
end

