-- ==== Sys2Proof/Machine/State.lean ====
section
/-! DEFINITION. The state of KCORE with its host, as plain data, and the state right after reset (10_state.md).

STATUS, BUSY and CMD are no fields: STATUS and BUSY are computed from PHASE and ERRCODE (R31, R34), and "CMD holds
nothing" (R35). RHOT, RC and PARAMS are constants, "configuration, not state" (R38). -/

namespace Sys2Proof.Machine

/-- PHASE, the sequencing register; the values 5, 6, 7 of its three bits are "never held" (R30; DEDUCED, log 17). -/
inductive Phase where
  | idle
  | absorb
  | squeeze
  | done
  | error
  deriving DecidableEq, Repr

/-- ERRCODE (R33). -/
inductive ErrCode where
  | none
  | contractViolation
  | resourceExhaustion
  | illegalCommand
  deriving DecidableEq, Repr

/-- A byte buffer, MSG or OUT: (address, byte) pairs, addresses strictly rising. An unlisted address holds no written
value; what a reader finds there is a free value, given where it is read (Ops.lean). -/
abbrev Memory := List Host.Cell

/-- The addresses rise strictly: the one canonical form. (No entry can equal what an unlisted address reads as, since
that is no written value.) -/
abbrev Memory.wf (m : Memory) : Prop := m.Pairwise fun c d => c.1 < d.1

/-- The host's moves (30_encoding.md R91): register accesses by number, filling MSG, reading OUT, polling STATUS.
Issuing a command is a write to register 0x00, CMD (44_host_commands.md R234, R235). DESIGN CHOICE, logs 6, 9, 19. -/
inductive HostMove where
  /-- `RD`: read the register with this number (R233). -/
  | read (reg : Nat)
  /-- `WR`: write a value to the register with this number (R234). -/
  | write (reg value : Nat)
  /-- `WRMSG`: fill MSG from address 0. -/
  | writeMsg (bytes : List Byte)
  /-- `RDOUT n`: read `OUT[0..n-1]`. -/
  | readOut (n : Nat)
  /-- `WAIT`: read STATUS until it shows neither ABSORB nor SQUEEZE. -/
  | wait
  deriving DecidableEq, Repr

/-- What a completed host read returned. -/
inductive Answer where
  | reg (reg value : Nat)
  | out (bytes : List Byte)
  deriving DecidableEq, Repr

/-- Why the machine stops with a fault: never. KCORE has three errors, which are states (60_exceptions.md R250), and "There
are no access faults" (R254), so the type has no constructor. Safe: nothing raises one. -/
inductive Fault where
  deriving DecidableEq, Repr

/-- Why the model gives a step no meaning. -/
inductive Refusal where
  /-- An arm of `exec` without a meaning; no arm is left so. Safe. -/
  | notModelled (mnemonic : String)
  /-- Raised by `WR` of a value that is no value of the register's width, which is no operand of a register write
  (44_host_commands.md R234, 43_sponge_controller.md R216). Safe: the model stops (DESIGN CHOICE, log 11). -/
  | valueNotOfWidth
  /-- Raised by `WRMSG` of more bytes than MSG has, an access the spec gives no effect (20_memory.md R51: the size of MSG
  is MAX_MLEN). Only where KCORE is quiescent. Safe: the model stops (DESIGN CHOICE, log 12). -/
  | absentMsgAddress
  /-- Raised by `RDOUT` of more bytes than OUT has, an access the spec gives no effect (20_memory.md R52: the size of OUT
  is MAX_OLEN). Only where KCORE is quiescent. Safe: the model stops (DESIGN CHOICE, log 12). -/
  | absentOutAddress
  deriving DecidableEq, Repr

/-- The state. The first eleven fields are the spec's; the last seven are the model's own (INVENTORY.md; DESIGN CHOICE,
logs 1, 4, 5, 6, 8, 10, 13). -/
structure State where
  /-- The 25 lanes `A[x,y]` (R20). -/
  lanes : Lanes
  /-- Message length in bytes for the next HASH (R25). -/
  mlen : Nat
  /-- Output length in bytes for the next HASH (R26). -/
  olen : Nat
  /-- Output bytes written by the current or last HASH (R27). -/
  ocnt : Nat
  /-- Mode of the HASH in progress (R28). -/
  mode : Mode
  /-- Blocks absorbed by the HASH in progress (R29). -/
  blk : Nat
  /-- The sequencing register (R30). -/
  phase : Phase
  /-- Round index of the permutation in progress (R32). -/
  rnd : Fin 24
  /-- The recorded error (R33). -/
  errcode : ErrCode
  /-- The message buffer (20_memory.md R51). -/
  msg : Memory
  /-- The output buffer (20_memory.md R52). -/
  out : Memory
  /-- The implementation's parameters (00_scope.md R10); no step changes them. -/
  cfg : Config.Params
  /-- The host's moves not yet completed, oldest first. -/
  host : List HostMove
  /-- What completed host reads returned, newest first. -/
  answers : List Answer
  /-- Reset events the outside has still to deliver (70_reset_and_hazards.md R280). -/
  resets : Nat
  /-- The host wrote a byte of `MSG[0..MLEN-1]` during the HASH in progress (20_memory.md R62). -/
  disturbed : Bool
  /-- The number of the next free value. -/
  draws : Nat
  /-- The draw of the last reset: it names the power-up contents of MSG and OUT. -/
  era : Nat
  deriving DecidableEq, Repr

/-- `k = x + 5*y`, the linear index of a lane (R21), for the free values below. -/
def State.laneIndex (x y : Fin 5) : Nat := x.val + 5 * y.val

/-- The state right after a reset that takes draw `d`: the table of R41. Nothing of the host's is in it. -/
def State.powerUp (cfg : Config.Params) (d : Nat) : State where
  lanes := Lanes.ofFn fun x y => Config.freeLane d (State.laneIndex x y)
  mlen := 0
  olen := 0
  ocnt := 0
  mode := Config.freeMode d
  blk := Config.freeBlk d
  phase := .idle
  rnd := Config.freeRnd d
  errcode := .none
  msg := []
  out := []
  cfg := cfg
  host := []
  answers := []
  resets := 0
  disturbed := false
  draws := d + 1
  era := d

/-- The machine right after reset (R41, 70_reset_and_hazards.md R280), with no host move pending. -/
def State.reset : State := State.powerUp Config.params 0

end Sys2Proof.Machine
end

