-- ==== Sys2Proof/Machine/Ops.lean ====
section
/-! DEFINITION. The named operations over registers, lanes and buffers, the error entry and the return from it, and
when a command is accepted. Every meaning is written with these. -/

namespace Sys2Proof.Machine

/-! ## Writing one field of the state -/

def State.setLanes (s : State) (v : Lanes) : State := { s with lanes := v }
def State.setMlen (s : State) (v : Nat) : State := { s with mlen := v }
def State.setOlen (s : State) (v : Nat) : State := { s with olen := v }
def State.setOcnt (s : State) (v : Nat) : State := { s with ocnt := v }
def State.setMode (s : State) (v : Mode) : State := { s with mode := v }
def State.setBlk (s : State) (v : Nat) : State := { s with blk := v }
def State.setPhase (s : State) (v : Phase) : State := { s with phase := v }
def State.setRnd (s : State) (v : Fin 24) : State := { s with rnd := v }
def State.setErrcode (s : State) (v : ErrCode) : State := { s with errcode := v }
def State.setMsg (s : State) (v : Memory) : State := { s with msg := v }
def State.setOut (s : State) (v : Memory) : State := { s with out := v }
def State.setHost (s : State) (v : List HostMove) : State := { s with host := v }
def State.setAnswers (s : State) (v : List Answer) : State := { s with answers := v }
def State.setResets (s : State) (v : Nat) : State := { s with resets := v }
def State.setDisturbed (s : State) (v : Bool) : State := { s with disturbed := v }
def State.setDraws (s : State) (v : Nat) : State := { s with draws := v }

/-! ## The lanes by linear index and by byte (10_state.md R21, R22) -/

/-- `k mod 5`, the column of lane `L[k]` (R21). -/
def columnOf (k : Nat) : Fin 5 := Fin.ofNat 5 k

/-- `k div 5`, the row of lane `L[k]` (R21). -/
def rowOf (k : Nat) : Fin 5 := Fin.ofNat 5 (k / 5)

/-- `L[k]` (R21). -/
def laneAt (A : Lanes) (k : Nat) : Lane := A.lane (columnOf k) (rowOf k)

/-- `L[k] <- v` (R21). -/
def setLaneAt (A : Lanes) (k : Nat) (v : Lane) : Lanes :=
  Lanes.ofFn fun x y => if x = columnOf k ∧ y = rowOf k then v else A.lane x y

/-- Byte `j` of a lane, least significant byte first: `v[8j+7 : 8j]` (R22). -/
def laneByte (v : Lane) (j : Nat) : Byte := v.extractLsb' (8 * j) 8

/-- `S[i]`, the byte view of the state (R22). -/
def stateByte (A : Lanes) (i : Nat) : Byte := laneByte (laneAt A (i / 8)) (i % 8)

/-- The lane of eight bytes, `f 0` least significant (R22, the converse). -/
def laneOfBytes (f : Nat → Byte) : Lane := f 7 ++ f 6 ++ f 5 ++ f 4 ++ f 3 ++ f 2 ++ f 1 ++ f 0

/-- The state whose byte `S[i]` is `f i`, `i` in 0..199 (R22). -/
def lanesOfBytes (f : Nat → Byte) : Lanes :=
  Lanes.ofFn fun x y => laneOfBytes fun j => f (8 * (x.val + 5 * y.val) + j)

/-- All 25 lanes zero: the "200-byte zero state" (43_sponge_controller.md R190, R201). -/
def zeroLanes : Lanes := Lanes.ofFn fun _ _ => 0#64

/-! ## The buffers (20_memory.md R51, R52) -/

/-- The byte written at an address, if one was. -/
def memRead (m : Memory) (a : Nat) : Option Byte :=
  match m with
  | [] => none
  | (b, v) :: rest => if b = a then some v else memRead rest a

/-- `MemWrite(space, a, 1, v)`, keeping the addresses strictly rising. -/
def memWrite (m : Memory) (a : Nat) (v : Byte) : Memory :=
  match m with
  | [] => [(a, v)]
  | (b, w) :: rest =>
    if a < b then (a, v) :: (b, w) :: rest
    else if a = b then (a, v) :: rest
    else (b, w) :: memWrite rest a v

/-- Bytes written one after another from address `a` upward. -/
def memWriteAll (m : Memory) (a : Nat) (bytes : List Byte) : Memory :=
  match bytes with
  | [] => m
  | v :: rest => memWriteAll (memWrite m a v) (a + 1) rest

/-- `MemRead(MSG, a, 1)`: the byte the host wrote there since the last reset, else the unspecified byte of that address
(70_reset_and_hazards.md R283, 93 U5). -/
def msgByte (s : State) (a : Nat) : Byte := (memRead s.msg a).getD (Config.freeMsg s.era a)

/-- The byte of OUT at `a` as the host reads it: the byte last written there, else unspecified (93 U4). -/
def outByte (s : State) (a : Nat) : Byte := (memRead s.out a).getD (Config.freeOut s.era a)

/-! ## Unspecified values -/

/-- All 25 lanes unspecified: draw `d` (10_state.md R24, R41). -/
def freeLanes (d : Nat) : Lanes := Lanes.ofFn fun x y => Config.freeLane d (x.val + 5 * y.val)

/-- The lanes and the MODE latch become unspecified, as they are from DONE on (R24, R28). -/
def discard (s : State) : State :=
  ((s.setLanes (freeLanes s.draws)).setMode (Config.freeMode s.draws)).setDraws (s.draws + 1)

/-- BLK becomes unspecified, as it is outside ABSORB (R29). -/
def forgetBlk (s : State) : State := (s.setBlk (Config.freeBlk s.draws)).setDraws (s.draws + 1)

/-- RND becomes unspecified, as it is outside a permutation (R32). -/
def forgetRnd (s : State) : State := (s.setRnd (Config.freeRnd s.draws)).setDraws (s.draws + 1)

/-! ## Errors (60_exceptions.md) -/

/-- The error entry, the meaning of `raise <Error>`: PHASE and ERRCODE are written "and nothing else" (R256). -/
def raiseError (e : ErrCode) (s : State) : State := (s.setPhase .error).setErrcode e

/-- The return from an error: PHASE IDLE, ERRCODE 0; "It restores nothing" (R258, 44_host_commands.md R231). -/
def clearError (s : State) : State := (s.setPhase .idle).setErrcode .none

/-! ## Acceptance of a command (44_host_commands.md R235) -/

/-- A command other than NOP and CLR, by phase (R235): performed in IDLE and DONE, ignored in ERROR (R257), held while
BUSY. Held is no effect yet: the machine's step keeps the write pending (70_reset_and_hazards.md R290; DEDUCED,
log 15). -/
def accept (effect : State → State) (s : State) : Host.Outcome State Fault Refusal :=
  match s.phase with
  | .idle => .next (effect s)
  | .done => .next (effect s)
  | .error => .next s
  | .absorb => .next s
  | .squeeze => .next s

/-- CLR by phase (R231, R235): acted on in IDLE, DONE and ERROR, held while BUSY, "so it cannot abort a hash". -/
def acceptClear (effect : State → State) (s : State) : Host.Outcome State Fault Refusal :=
  match s.phase with
  | .idle => .next (effect s)
  | .done => .next (effect s)
  | .error => .next (effect s)
  | .absorb => .next s
  | .squeeze => .next s

/-! ## Reset (70_reset_and_hazards.md R280 to R282) -/

/-- A reset event: every piece of KCORE's state takes the reset value, lanes and buffers unspecified anew, a HASH in
progress abandoned (R280, R282). The host's own side, and the implementation's parameters, are not KCORE's to reset
(DESIGN CHOICE, log 8). -/
def resetEvent (s : State) : State :=
  (((State.powerUp s.cfg s.draws).setHost s.host).setAnswers s.answers).setResets s.resets

end Sys2Proof.Machine
end

