-- ==== Sys2Proof/Machine/Flags.lean ====
section
/-! DEFINITION. The status KCORE shows: BUSY and STATUS. There are no condition codes (10_state.md R34). -/

namespace Sys2Proof.Machine

/-- The number of a PHASE (10_state.md R30). -/
def phaseCode (p : Phase) : BitVec 3 :=
  match p with
  | .idle => 0
  | .absorb => 1
  | .squeeze => 2
  | .done => 3
  | .error => 4

/-- The number of an ERRCODE (R33, 60_exceptions.md R250). -/
def errNumber (e : ErrCode) : BitVec 2 :=
  match e with
  | .none => 0
  | .contractViolation => 1
  | .resourceExhaustion => 2
  | .illegalCommand => 3

/-- BUSY: "PHASE = ABSORB or PHASE = SQUEEZE" (R31). -/
def busy (s : State) : Bool :=
  match s.phase with
  | .absorb => true
  | .squeeze => true
  | .idle => false
  | .done => false
  | .error => false

/-- STATUS: `[7:6]` 0, `[5:4]` ERRCODE, `[3]` 0, `[2:0]` PHASE (R34). -/
def statusByte (s : State) : Byte := 0#2 ++ errNumber s.errcode ++ 0#1 ++ phaseCode s.phase

end Sys2Proof.Machine
end

