-- ==== Sys2Proof/Machine/Permutation.lean ====
section
/-! DEFINITION. The Permutation Engine as functions of the 25 lanes: lane rotation, the five sub-steps, the round, the
permutation (40_lane_primitives.md, 41_permutation_steps.md, 42_round_permute.md).

"The Permutation Engine has no knowledge of padding, domain separation, or output length" (00_scope.md R2). Coordinates
are numbers mod 5 (R114): sums of `Fin 5` wrap. -/

namespace Sys2Proof.Machine

/-- `ROTL64(v, n)`: circular left rotation by `n mod 64` (R110). -/
def rotl64 (v : Lane) (n : Nat) : Lane := v.rotateLeft n

/-- Column parity `C[x]` (R130). -/
def columnParity (A : Lanes) (x : Fin 5) : Lane :=
  A.lane x 0 ^^^ A.lane x 1 ^^^ A.lane x 2 ^^^ A.lane x 3 ^^^ A.lane x 4

/-- `D[x] = C[(x+4) mod 5] ^ ROTL64(C[(x+1) mod 5], 1)` (R130). -/
def thetaD (A : Lanes) (x : Fin 5) : Lane :=
  columnParity A (x + 4) ^^^ rotl64 (columnParity A (x + 1)) 1

/-- Theta (R130). -/
def theta (A : Lanes) : Lanes :=
  let D := Five.ofFn (thetaD A)
  Lanes.ofFn fun x y => A.lane x y ^^^ D.get x

/-- The rotation offsets, one row of `x = 0..4` for each `y` (R134). -/
def rhoTable : Five (Five Nat) :=
  ⟨⟨ 0,  1, 62, 28, 27⟩,
   ⟨36, 44,  6, 55, 20⟩,
   ⟨ 3, 10, 43, 25, 39⟩,
   ⟨41, 45, 15, 21,  8⟩,
   ⟨18,  2, 61, 56, 14⟩⟩

/-- `RHOT[x,y]` (R134). -/
def rhoOffset (x y : Fin 5) : Nat := (rhoTable.get y).get x

/-- Rho (R133). -/
def rho (A : Lanes) : Lanes := Lanes.ofFn fun x y => rotl64 (A.lane x y) (rhoOffset x y)

/-- Pi (R136) in the gather form of R137: the lane that comes to `(x, y)` is the one at `((x + 3y) mod 5, x)`. -/
def pi (A : Lanes) : Lanes := Lanes.ofFn fun x y => A.lane (x + 3 * y) x

/-- Chi (R139). -/
def chi (A : Lanes) : Lanes :=
  Lanes.ofFn fun x y => A.lane x y ^^^ (~~~(A.lane (x + 1) y) &&& A.lane (x + 2) y)

/-- The round constants `RC[0..23]` (R161). -/
def roundConstants : List Lane :=
  [0x0000000000000001#64, 0x0000000000008082#64, 0x800000000000808A#64, 0x8000000080008000#64,
   0x000000000000808B#64, 0x0000000080000001#64, 0x8000000080008081#64, 0x8000000000008009#64,
   0x000000000000008A#64, 0x0000000000000088#64, 0x0000000080008009#64, 0x000000008000000A#64,
   0x000000008000808B#64, 0x800000000000008B#64, 0x8000000000008089#64, 0x8000000000008003#64,
   0x8000000000008002#64, 0x8000000000000080#64, 0x000000000000800A#64, 0x800000008000000A#64,
   0x8000000080008081#64, 0x8000000000008080#64, 0x0000000080000001#64, 0x8000000080008008#64]

/-- `RC[ir]` (R161). -/
def roundConstant (ir : Fin 24) : Lane := roundConstants.getD ir.val 0#64

/-- Iota (R142): only `A[0,0]` changes. -/
def iota (ir : Fin 24) (A : Lanes) : Lanes :=
  Lanes.ofFn fun x y => if x = 0 ∧ y = 0 then A.lane x y ^^^ roundConstant ir else A.lane x y

/-- `Round(A, ir) = iota(chi(pi(rho(theta(A)))), ir)` (R160). -/
def keccakRound (ir : Fin 24) (A : Lanes) : Lanes := iota ir (chi (pi (rho (theta A))))

/-- The round whose index RND holds, and RND on to the next (10_state.md R32: "round `RND` uses constant `RC[RND]`"). -/
def nextRound (s : State) : State := (s.setLanes (keccakRound s.rnd s.lanes)).setRnd (s.rnd + 1)

/-- `n` rounds, one after another. -/
def rounds (n : Nat) (s : State) : State :=
  match n with
  | 0 => s
  | k + 1 => rounds k (nextRound s)

/-- `S <- KeccakF(S)`: RND runs from 0, and "the permutation is complete when round 23 is done" (R32, R165). For the host
it is one indivisible transition (R166); after it RND is unspecified (R32). -/
def permute (s : State) : State := forgetRnd (rounds 24 (s.setRnd 0))

/-- `KeccakF(A)`, the permutation as a function of the lanes alone: rounds `ir = 0, 1, ..., 23` in this order (R165). -/
def keccakF (A : Lanes) : Lanes := (List.finRange 24).foldl (fun B ir => keccakRound ir B) A

end Sys2Proof.Machine
end

