-- ==== Sys2Proof/Machine/Sponge.lean ====
section
/-! DEFINITION. The Sponge Controller: mode records, padding, the hash as one function (R200) and as controller steps
(R201 to R206) (43_sponge_controller.md). -/

namespace Sys2Proof.Machine

/-! ## Mode records (R180) -/

/-- A mode record: `fixedOutput` is `fixed_output_bytes` where `output_is_fixed`, else `none` (R180). -/
structure ModeParams where
  rateBytes : Nat
  capacityBytes : Nat
  /-- The domain suffix, first bit first. -/
  suffixBits : List Bool
  fixedOutput : Option Nat
  /-- `SUFB`, the first padding byte before any merging with the last (R183). -/
  suffixByte : Byte
  deriving DecidableEq, Repr

/-- `PARAMS[m]` (R180). -/
def params (m : Mode) : ModeParams :=
  match m with
  | .sha3_224 => ⟨144, 56, [false, true], some 28, 0x06#8⟩
  | .sha3_256 => ⟨136, 64, [false, true], some 32, 0x06#8⟩
  | .sha3_384 => ⟨104, 96, [false, true], some 48, 0x06#8⟩
  | .sha3_512 => ⟨72, 128, [false, true], some 64, 0x06#8⟩
  | .shake128 => ⟨168, 32, [true, true, true, true], none, 0x1F#8⟩
  | .shake256 => ⟨136, 64, [true, true, true, true], none, 0x1F#8⟩

/-- The rate `r` of a mode (R180). -/
def rate (m : Mode) : Nat := (params m).rateBytes

/-! ## Padding (R183 to R185) -/

/-- The length `q` of the padding region of an `n`-byte message (R184). -/
def padLength (m : Mode) (n : Nat) : Nat := rate m - n % rate m

/-- `Pad(m, n)` (R184). -/
def pad (m : Mode) (n : Nat) : List Byte :=
  if padLength m n = 1 then [(params m).suffixByte ||| 0x80#8]
  else (params m).suffixByte :: (List.replicate (padLength m n - 2) 0x00#8 ++ [0x80#8])

/-- The number of blocks of the padded message, `NB = (n div r) + 1` (R184). -/
def blockCount (m : Mode) (n : Nat) : Nat := n / rate m + 1

/-- `PByte(m, n, i)`: byte `i` of the padded message without building it; `msg` gives the message bytes (R185). -/
def pByte (msg : Nat → Byte) (m : Mode) (n i : Nat) : Byte :=
  if i < n then msg i
  else
    (if i - n = 0 then (params m).suffixByte else 0x00#8)
      ||| (if i - n = padLength m n - 1 then 0x80#8 else 0x00#8)

/-! ## The hash as one function: the normative meaning of a HASH command (R200) -/

/-- XOR of a block into the first `r` bytes of the state; the other bytes keep their values (R113, R182, R203). -/
def xorBlock (A : Lanes) (r : Nat) (block : Nat → Byte) : Lanes :=
  lanesOfBytes fun i => if i < r then stateByte A i ^^^ block i else stateByte A i

/-- The first `n` bytes of the state. -/
def takeBytes (A : Lanes) (n : Nat) : List Byte := (List.range n).map (stateByte A)

/-- Absorb: each block of `P` in turn is XORed in and the state permuted (R200). -/
def absorbBlocks (r : Nat) (P : List Byte) (nb : Nat) : Lanes :=
  (List.range nb).foldl (fun A k => keccakF (xorBlock A r fun i => P.getD (k * r + i) 0x00#8)) zeroLanes

/-- Squeeze: `owed` more bytes from state `A`, a block at a time, permuting only while bytes are owed (R200). The fuel
bounds the number of blocks. -/
def squeezeBlocks (fuel r owed : Nat) (A : Lanes) : List Byte :=
  match fuel with
  | 0 => []
  | k + 1 =>
    takeBytes A (min r owed)
      ++ (if owed = min r owed then [] else squeezeBlocks k r (owed - min r owed) (keccakF A))

/-- The mode fixes another output length than the one asked for (R200, 60_exceptions.md R251). -/
def contractBroken (m : Mode) (o : Nat) : Bool :=
  match (params m).fixedOutput with
  | some f => decide (o ≠ f)
  | none => false

/-- The output of the sponge on message `M` (R200, after its check); `o div r + 1` blocks are enough. -/
def spongeOutput (M : List Byte) (m : Mode) (o : Nat) : List Byte :=
  squeezeBlocks (o / rate m + 1) (rate m) o
    (absorbBlocks (rate m) (M ++ pad m M.length) (blockCount m M.length))

/-- `SpongeHash(M, m, o)`; `none` is ContractViolation (R200). -/
def spongeHash (M : List Byte) (m : Mode) (o : Nat) : Option (List Byte) :=
  if contractBroken m o then none else some (spongeOutput M m o)

/-! ## The hash as controller steps -/

/-- The message of a HASH command, `MSG[0..MLEN-1]` (20_memory.md R51). -/
def message (s : State) : List Byte := (List.range s.mlen).map (msgByte s)

/-- MLEN > MAX_MLEN or OLEN > MAX_OLEN (R201, 60_exceptions.md R252). -/
def resourceShort (s : State) : Bool :=
  Config.exceeds s.mlen s.cfg.maxMlen || Config.exceeds s.olen s.cfg.maxOlen

/-- The last part of a HASH start, once the checks have passed (R201). -/
def beginAbsorb (m : Mode) (s : State) : State :=
  ((((s.setMode m).setLanes zeroLanes).setBlk 0).setPhase .absorb).setDisturbed false

/-- HASH start, in the order written: OCNT, the contract check, the resource check, then the zero-fill and ABSORB
(R201, 60_exceptions.md R255). -/
def startHash (m : Mode) (s : State) : State :=
  if contractBroken m s.olen then raiseError .contractViolation (s.setOcnt 0)
  else if resourceShort s then raiseError .resourceExhaustion (s.setOcnt 0)
  else beginAbsorb m (s.setOcnt 0)

/-- The byte of the padded message that an absorb step XORs into `S[i]` (R203). -/
def blockByte (s : State) (i : Nat) : Byte := pByte (msgByte s) s.mode s.mlen (s.blk * rate s.mode + i)

/-- The XOR of the next block and the permutation, without the controller's count (R203). -/
def absorbBlock (s : State) : State := permute (s.setLanes (xorBlock s.lanes (rate s.mode) (blockByte s)))

/-- Absorb step (R203). BLK has no value outside ABSORB (10_state.md R29). -/
def absorbStep (s : State) : State :=
  if s.blk + 1 = blockCount s.mode s.mlen then (forgetBlk (absorbBlock s)).setPhase .squeeze
  else (absorbBlock s).setBlk (s.blk + 1)

/-- The number of bytes a squeeze step emits (R205). -/
def takeCount (s : State) : Nat := min (rate s.mode) (s.olen - s.ocnt)

/-- `n` unspecified bytes of OUT from address `a` on, of draw `d`. -/
def freeBytes (d a n : Nat) : List Byte := (List.range n).map fun j => Config.freeOut d (a + j)

/-- The bytes a squeeze step writes: the first bytes of the state (R205); unspecified where the host has disturbed the
message of this HASH (20_memory.md R62). -/
def emitted (s : State) : List Byte :=
  if s.disturbed then freeBytes s.draws s.ocnt (takeCount s) else takeBytes s.lanes (takeCount s)

/-- The write of one block of output and the count (R205). -/
def emitBlock (s : State) : State :=
  (s.setOut (memWriteAll s.out s.ocnt (emitted s))).setOcnt (s.ocnt + takeCount s)

/-- Squeeze step (R205, R206): at the last block DONE, with the state discarded (10_state.md R24); else a permutation. -/
def squeezeStep (s : State) : State :=
  if s.ocnt + takeCount s = s.olen then (discard (emitBlock s)).setPhase .done
  else permute (emitBlock s)

/-- The controller's own step while BUSY; it has none otherwise (R203, R205, 70_reset_and_hazards.md R297). -/
def controllerStep (s : State) : State :=
  match s.phase with
  | .absorb => absorbStep s
  | .squeeze => squeezeStep s
  | .idle => s
  | .done => s
  | .error => s

end Sys2Proof.Machine
end

