-- ==== Sys2Proof/Machine/HashCommands.lean ====
section
/-! DEFINITION. The six HASH commands: each starts its mode's hash where accepted (43_sponge_controller.md R201, R210 to
R215); the controller's steps then carry it to DONE (Sponge.lean, Sequencer.lean). -/

namespace Sys2Proof.Machine

/-- HASH.SHA3_224 (R210). -/
def execHashSha3_224 (s : State) : Host.Outcome State Fault Refusal := accept (startHash .sha3_224) s

/-- HASH.SHA3_256 (R211). -/
def execHashSha3_256 (s : State) : Host.Outcome State Fault Refusal := accept (startHash .sha3_256) s

/-- HASH.SHA3_384 (R212). -/
def execHashSha3_384 (s : State) : Host.Outcome State Fault Refusal := accept (startHash .sha3_384) s

/-- HASH.SHA3_512 (R213). -/
def execHashSha3_512 (s : State) : Host.Outcome State Fault Refusal := accept (startHash .sha3_512) s

/-- HASH.SHAKE128 (R214). -/
def execHashShake128 (s : State) : Host.Outcome State Fault Refusal := accept (startHash .shake128) s

/-- HASH.SHAKE256 (R215). -/
def execHashShake256 (s : State) : Host.Outcome State Fault Refusal := accept (startHash .shake256) s

end Sys2Proof.Machine
end

