-- ==== Sys2Proof/Machine/HostCommands.lean ====
section
/-! DEFINITION. NOP, CLR, and a reserved word (44_host_commands.md R230 to R232). -/

namespace Sys2Proof.Machine

/-- NOP: nothing, in every phase (R230). -/
def execNop (s : State) : Host.Outcome State Fault Refusal := .next s

/-- CLR (R231). -/
def execClr (s : State) : Host.Outcome State Fault Refusal := acceptClear clearError s

/-- A reserved word: IllegalCommand in IDLE and DONE, ignored in ERROR (R232, 60_exceptions.md R253). -/
def execReserved (s : State) : Host.Outcome State Fault Refusal := accept (raiseError .illegalCommand) s

end Sys2Proof.Machine
end

