-- ==== Sys2Proof/WellFormed.lean ====
section
/-! DEFINITION. Which commands are well formed: the round index of IOTA and ROUND is 0 to 23 (30_encoding.md R84);
every other command has no operand to check. -/

namespace Sys2Proof

/-- A legal round index: there are 24 rounds (30_encoding.md R84). -/
def legalRound (ir : BitVec 5) : Bool := decide (ir.toNat ≤ 23)

/-- The commands a word can encode (30_encoding.md R84, R86). -/
def Instr.wellFormed (i : Instr) : Bool :=
  match i with
  | .nop => true
  | .clr => true
  | .init => true
  | .theta => true
  | .rho => true
  | .pi => true
  | .chi => true
  | .keccakf => true
  | .iota ir => legalRound ir
  | .round ir => legalRound ir
  | .hashSha3_224 => true
  | .hashSha3_256 => true
  | .hashSha3_384 => true
  | .hashSha3_512 => true
  | .hashShake128 => true
  | .hashShake256 => true

end Sys2Proof
end

