-- ==== Sys2Proof/Decode.lean ====
section
/-! DEFINITION. Command words: decoding, total on all 256 bytes, then encoding (30_encoding.md R80 to R88).

A command is one 8-bit word and "a decoder never has to find a length" (R80), so decoding is a function of one byte. -/

namespace Sys2Proof

/-- Why a word is reserved (R88). All three raise the same IllegalCommand (60_exceptions.md R253); the name says which
range of R86 the word lies in. -/
inductive Reserved where
  /-- IOTA or ROUND with a round index of 24 to 31 (R84). -/
  | roundIndex
  /-- HASH with mode 6 or 7 (R84, R85). -/
  | modeNumber
  /-- A word of no class of R86. -/
  | unassigned
  deriving DecidableEq, Repr

/-- What a word decodes to. -/
inductive Decoded where
  | instr (i : Instr)
  | reserved (why : Reserved)
  deriving DecidableEq, Repr

/-- The mode number `m` (R85). -/
def modeNumber (m : Mode) : BitVec 3 :=
  match m with
  | .sha3_224 => 0
  | .sha3_256 => 1
  | .sha3_384 => 2
  | .sha3_512 => 3
  | .shake128 => 4
  | .shake256 => 5

/-- The mode with number `m`; 6 and 7 are reserved (R85). -/
def modeOfNumber (m : BitVec 3) : Option Mode :=
  match m.toNat with
  | 0 => some .sha3_224
  | 1 => some .sha3_256
  | 2 => some .sha3_384
  | 3 => some .sha3_512
  | 4 => some .shake128
  | 5 => some .shake256
  | _ => none

/-- The HASH command of a mode (R86). -/
def hashInstr (m : Mode) : Instr :=
  match m with
  | .sha3_224 => .hashSha3_224
  | .sha3_256 => .hashSha3_256
  | .sha3_384 => .hashSha3_384
  | .sha3_512 => .hashSha3_512
  | .shake128 => .hashShake128
  | .shake256 => .hashShake256

/-- `c[7:5]`, the class of format R (R82). -/
def classField (c : Byte) : BitVec 3 := c.extractLsb' 5 3

/-- `c[4:0]`, the round index of format R (R82, R84). -/
def roundField (c : Byte) : BitVec 5 := c.extractLsb' 0 5

/-- `c[7:3]`, the fixed field of format M (R83). -/
def hashField (c : Byte) : BitVec 5 := c.extractLsb' 3 5

/-- `c[2:0]`, the mode number of format M (R83, R84). -/
def modeField (c : Byte) : BitVec 3 := c.extractLsb' 0 3

/-- A format R command, or a reserved word where the round index is 24 to 31 (R84, R88). -/
def decodeRound (mk : BitVec 5 → Instr) (ir : BitVec 5) : Decoded :=
  if legalRound ir then .instr (mk ir) else .reserved .roundIndex

/-- A format M command, or a reserved word where the mode number is 6 or 7 (R84, R88). -/
def decodeHash (m : BitVec 3) : Decoded :=
  match modeOfNumber m with
  | some mode => .instr (hashInstr mode)
  | none => .reserved .modeNumber

/-- Decoding, as a total function of the byte (R87). -/
def decode (c : Byte) : Decoded :=
  if c = 0x00#8 then .instr .nop
  else if c = 0x01#8 then .instr .clr
  else if c = 0x02#8 then .instr .init
  else if c = 0x10#8 then .instr .theta
  else if c = 0x11#8 then .instr .rho
  else if c = 0x12#8 then .instr .pi
  else if c = 0x13#8 then .instr .chi
  else if c = 0x18#8 then .instr .keccakf
  else if classField c = 0b001#3 then decodeRound .iota (roundField c)
  else if classField c = 0b010#3 then decodeRound .round (roundField c)
  else if hashField c = 0b10000#5 then decodeHash (modeField c)
  else .reserved .unassigned

/-- The HASH word of a mode, format M: `10000` and then the mode number (R83). -/
def encodeHash (m : Mode) : Byte := 0b10000#5 ++ modeNumber m

/-- The word of a command (R81, R82, R83, R86). For a round index of 24 to 31 it is the reserved word whose fields
are those (R86, 0x38 to 0x3F and 0x58 to 0x5F). -/
def encode (i : Instr) : Byte :=
  match i with
  | .nop => 0x00#8
  | .clr => 0x01#8
  | .init => 0x02#8
  | .theta => 0x10#8
  | .rho => 0x11#8
  | .pi => 0x12#8
  | .chi => 0x13#8
  | .keccakf => 0x18#8
  | .iota ir => 0b001#3 ++ ir
  | .round ir => 0b010#3 ++ ir
  | .hashSha3_224 => encodeHash .sha3_224
  | .hashSha3_256 => encodeHash .sha3_256
  | .hashSha3_384 => encodeHash .sha3_384
  | .hashSha3_512 => encodeHash .sha3_512
  | .hashShake128 => encodeHash .shake128
  | .hashShake256 => encodeHash .shake256

/-- The command word whose low `nbits` bits are those of `w` and whose bits above are 0. -/
def tableWord (nbits w : Nat) : Byte := BitVec.ofNat 8 (w % 2 ^ nbits)

/-- The instruction the decoder reads from a word numbered as spec/opcode_table.json numbers it. Every row has 8 bits,
and no command is longer (R80): more than 8 bits is no command. -/
def decodeTableWord (nbits w : Nat) : Option Instr :=
  if nbits ≤ 8 then
    match decode (tableWord nbits w) with
    | .instr i => some i
    | .reserved _ => none
  else none

end Sys2Proof
end

