-- ==== Sys2Proof/Machine/Operands.lean ====
section
/-! DEFINITION. Operand forms: the round index of a command word, and the register a host access names. -/

namespace Sys2Proof.Machine

/-- The round index of IOTA or ROUND, 0 to 23; 24 to 31 name no round (30_encoding.md R84). -/
def roundOf (ir : BitVec 5) : Option (Fin 24) :=
  if h : ir.toNat < 24 then some ⟨ir.toNat, h⟩ else none

/-- The registers of KCORE (10_state.md R36). -/
inductive Reg where
  | cmd
  | status
  | mlen
  | olen
  | ocnt
  | lane (k : Fin 25)
  | reserved
  deriving DecidableEq, Repr

/-- The register of a number (R36): LANE[k] is 0x20 + k, k = 0..24; all numbers not listed are reserved. -/
def regOfNumber (n : Nat) : Reg :=
  if n = 0x00 then .cmd
  else if n = 0x01 then .status
  else if n = 0x02 then .mlen
  else if n = 0x03 then .olen
  else if n = 0x04 then .ocnt
  else if h : 0x20 ≤ n ∧ n ≤ 0x38 then .lane ⟨n - 0x20, by omega⟩
  else .reserved

end Sys2Proof.Machine
end

