-- ==== Sys2Proof/Machine/PermutationCommands.lean ====
section
/-! DEFINITION. INIT and the Permutation Engine commands: `S <- step(S)` and `PHASE <- IDLE` where accepted
(43_sponge_controller.md R190, 41_permutation_steps.md R145). -/

namespace Sys2Proof.Machine

/-- One atomic transition `S <- f(S)`, `PHASE <- IDLE` (R145). -/
def onLanes (f : Lanes → Lanes) (s : State) : State := (s.setLanes (f s.lanes)).setPhase .idle

/-- A command with a round index: 24 to 31 are no such command but a reserved word (30_encoding.md R84, R88; DEDUCED,
log 14). -/
def withRound (ir : BitVec 5) (f : Fin 24 → Lanes → Lanes) (s : State) : Host.Outcome State Fault Refusal :=
  match roundOf ir with
  | some r => accept (onLanes (f r)) s
  | none => execReserved s

/-- INIT (R190). -/
def execInit (s : State) : Host.Outcome State Fault Refusal := accept (onLanes fun _ => zeroLanes) s

/-- THETA (R130). -/
def execTheta (s : State) : Host.Outcome State Fault Refusal := accept (onLanes theta) s

/-- RHO (R133). -/
def execRho (s : State) : Host.Outcome State Fault Refusal := accept (onLanes rho) s

/-- PI (R136). -/
def execPi (s : State) : Host.Outcome State Fault Refusal := accept (onLanes pi) s

/-- CHI (R139). -/
def execChi (s : State) : Host.Outcome State Fault Refusal := accept (onLanes chi) s

/-- KECCAKF (42_round_permute.md R165). -/
def execKeccakf (s : State) : Host.Outcome State Fault Refusal := accept (fun t => (permute t).setPhase .idle) s

/-- IOTA ir (R142). -/
def execIota (ir : BitVec 5) (s : State) : Host.Outcome State Fault Refusal := withRound ir iota s

/-- ROUND ir (42_round_permute.md R164): it does not read or advance RND. -/
def execRound (ir : BitVec 5) (s : State) : Host.Outcome State Fault Refusal := withRound ir keccakRound s

end Sys2Proof.Machine
end

