-- ==== Sys2Proof/Machine/Dispatch.lean ====
section
/-! DEFINITION. `exec`: one arm per command. -/

namespace Sys2Proof.Machine

def exec (i : Instr) (s : State) : Host.Outcome State Fault Refusal :=
  match i with
  | .nop => Sys2Proof.Machine.execNop s
  | .clr => Sys2Proof.Machine.execClr s
  | .init => Sys2Proof.Machine.execInit s
  | .theta => Sys2Proof.Machine.execTheta s
  | .rho => Sys2Proof.Machine.execRho s
  | .pi => Sys2Proof.Machine.execPi s
  | .chi => Sys2Proof.Machine.execChi s
  | .keccakf => Sys2Proof.Machine.execKeccakf s
  | .iota ir => Sys2Proof.Machine.execIota ir s
  | .round ir => Sys2Proof.Machine.execRound ir s
  | .hashSha3_224 => Sys2Proof.Machine.execHashSha3_224 s
  | .hashSha3_256 => Sys2Proof.Machine.execHashSha3_256 s
  | .hashSha3_384 => Sys2Proof.Machine.execHashSha3_384 s
  | .hashSha3_512 => Sys2Proof.Machine.execHashSha3_512 s
  | .hashShake128 => Sys2Proof.Machine.execHashShake128 s
  | .hashShake256 => Sys2Proof.Machine.execHashShake256 s

end Sys2Proof.Machine
end

