-- ==== Sys2Proof/Machine/HostAccess.lean ====
section
/-! DEFINITION. Host accesses other than command writes: register reads and writes by number, filling MSG, reading OUT
(10_state.md R36, R37, 44_host_commands.md R233, R234, 30_encoding.md R91, 20_memory.md R51, R52, R62). -/

namespace Sys2Proof.Machine

/-- What a read of a register returns; CMD and reserved numbers return 0 (R36, R37, R233). -/
def readRegister (s : State) (n : Nat) : Nat :=
  match regOfNumber n with
  | .cmd => 0
  | .status => (statusByte s).toNat
  | .mlen => s.mlen
  | .olen => s.olen
  | .ocnt => s.ocnt
  | .lane k => (laneAt s.lanes k.val).toNat
  | .reserved => 0

/-- A completed host read. -/
def answer (a : Answer) (s : State) : State := s.setAnswers (a :: s.answers)

/-- `WR MLEN, v`: a value of the register's width is stored (R234). -/
def storeMlen (v : Nat) (s : State) : Host.Outcome State Fault Refusal :=
  if Config.fits v s.cfg.lenW then .next (s.setMlen v) else .refused .valueNotOfWidth

/-- `WR OLEN, v`: a value of the register's width is stored (R234). -/
def storeOlen (v : Nat) (s : State) : Host.Outcome State Fault Refusal :=
  if Config.fits v s.cfg.lenW then .next (s.setOlen v) else .refused .valueNotOfWidth

/-- `WR LANE[k], v`: a 64-bit value is stored in `L[k]` (R37, R234). -/
def storeLane (k : Fin 25) (v : Nat) (s : State) : Host.Outcome State Fault Refusal :=
  if v < 2 ^ 64 then .next (s.setLanes (setLaneAt s.lanes k.val (BitVec.ofNat 64 v)))
  else .refused .valueNotOfWidth

/-- The host wrote `MSG[0..MLEN-1]` while BUSY: "every output byte of that HASH is unspecified" (20_memory.md R62), those
already in OUT as well (DESIGN CHOICE, log 13). -/
def disturb (s : State) : State :=
  ((s.setOut (memWriteAll s.out 0 (freeBytes s.draws 0 s.ocnt))).setDisturbed true).setDraws (s.draws + 1)

/-- Some byte of a fill of MSG lies in `MSG[0..MLEN-1]` while a HASH is in progress (20_memory.md R62). -/
def disturbs (bytes : List Byte) (s : State) : Bool := busy s && decide (0 < min bytes.length s.mlen)

/-- `WRMSG`: MSG from address 0 takes the bytes (30_encoding.md R91). MSG has MAX_MLEN bytes (20_memory.md R51), and a fill
beyond them is refused (DESIGN CHOICE, log 12). -/
def fillMsg (bytes : List Byte) (s : State) : Host.Outcome State Fault Refusal :=
  if Config.exceeds bytes.length s.cfg.maxMlen then .refused .absentMsgAddress
  else if disturbs bytes s then .next (disturb (s.setMsg (memWriteAll s.msg 0 bytes)))
  else .next (s.setMsg (memWriteAll s.msg 0 bytes))

/-- `RDOUT n`: the host reads `OUT[0..n-1]` (30_encoding.md R91); while BUSY "the value read is unspecified" (20_memory.md
R62). OUT has MAX_OLEN bytes (R52), and a read beyond them is refused (DESIGN CHOICE, log 12). -/
def readOutBytes (n : Nat) (s : State) : Host.Outcome State Fault Refusal :=
  if Config.exceeds n s.cfg.maxOlen then .refused .absentOutAddress
  else if busy s then .next ((answer (.out (freeBytes s.draws 0 n)) s).setDraws (s.draws + 1))
  else .next (answer (.out ((List.range n).map (outByte s))) s)

end Sys2Proof.Machine
end

