-- ==== Sys2Proof/Machine/Sequencer.lean ====
section
/-! DEFINITION. What moves next: a reset, the host's oldest pending move, or the controller (00_scope.md R3,
70_reset_and_hazards.md R280, R290, R297). -/

namespace Sys2Proof.Machine

/-- A command word written to CMD: decode comes first (30_encoding.md R87, 60_exceptions.md R255). -/
def issueCommand (c : Byte) (s : State) : Host.Outcome State Fault Refusal :=
  match decode c with
  | .instr i => exec i s
  | .reserved _ => execReserved s

/-- `WR`: a write to CMD issues the command; MLEN, OLEN and LANE[k] store; a write to a read-only or reserved number is
ignored (44_host_commands.md R234, 10_state.md R35, R37). -/
def writeRegister (n v : Nat) (s : State) : Host.Outcome State Fault Refusal :=
  match regOfNumber n with
  | .cmd => if v < 2 ^ 8 then issueCommand (BitVec.ofNat 8 v) s else .refused .valueNotOfWidth
  | .status => .next s
  | .mlen => storeMlen v s
  | .olen => storeOlen v s
  | .ocnt => .next s
  | .lane k => storeLane k v s
  | .reserved => .next s

/-- A host move that is not held, on the state from which it has been taken. -/
def performMove (m : HostMove) (s : State) : Host.Outcome State Fault Refusal :=
  match m with
  | .read n => .next (answer (.reg n (readRegister s n)) s)
  | .write n v => writeRegister n v s
  | .writeMsg bytes => fillMsg bytes s
  | .readOut n => readOutBytes n s
  | .wait => .next (answer (.reg 0x01 (readRegister s 0x01)) s)

/-- A move KCORE does not hold while BUSY: a read of STATUS (R290), and the buffers, which "may be reachable by the host
through a path KCORE does not control" (20_memory.md R62). A buffer access at an address the buffer does not have waits until
KCORE is quiescent: "no host action can disable" the controller's step (R296; DESIGN CHOICE, log 12). -/
def neverHeld (m : HostMove) (s : State) : Bool :=
  match m with
  | .read n => decide (regOfNumber n = .status)
  | .write _ _ => false
  | .writeMsg bytes => !Config.exceeds bytes.length s.cfg.maxMlen
  | .readOut n => !Config.exceeds n s.cfg.maxOlen
  | .wait => false

/-- While BUSY: the controller steps, and every held access waits (R290). Where the host's next move is not held, either
may come first; a free choice says which (DESIGN CHOICE, log 7). -/
def busyStep (s : State) : Host.Outcome State Fault Refusal :=
  match s.host with
  | [] => .next (controllerStep s)
  | m :: rest =>
    if neverHeld m s then
      if Config.hostFirst s.draws then performMove m ((s.setDraws (s.draws + 1)).setHost rest)
      else .next (controllerStep (s.setDraws (s.draws + 1)))
    else .next (controllerStep s)

/-- While quiescent: the host's next move, if there is one; else nothing changes (60_exceptions.md R270). -/
def quietStep (s : State) : Host.Outcome State Fault Refusal :=
  match s.host with
  | [] => .next s
  | m :: rest => performMove m (s.setHost rest)

/-- A step in which no reset lands. -/
def coreStep (s : State) : Host.Outcome State Fault Refusal :=
  if busy s then busyStep s else quietStep s

/-- One step. A reset event that is still to come may land at any step (R280); a free choice says at which (DESIGN CHOICE,
log 8). -/
def machineStep (s : State) : Host.Outcome State Fault Refusal :=
  match s.resets with
  | 0 => coreStep s
  | n + 1 =>
    if Config.resetNow s.draws then .next (resetEvent (s.setResets n))
    else coreStep (s.setDraws (s.draws + 1))

/-- A command word placed as the host's very next move. -/
def placeCommand (c : Byte) (s : State) : State := s.setHost (.write 0x00 c.toNat :: s.host)

end Sys2Proof.Machine
end

