-- ==== Sys2Proof/Safety.lean ====
section
/-! DEFINITION. The terms claims use: what a result is, what the host owes, and the invariant every step keeps. -/

namespace Sys2Proof.Machine

/-- PHASE is IDLE or DONE: the phases in which commands are performed (44_host_commands.md R235). -/
abbrev ready (s : State) : Prop := s.phase = .idle ∨ s.phase = .done

/-- The result of the last HASH: `OUT[0..OCNT-1]` when PHASE is DONE, else there is none (70_reset_and_hazards.md R292). -/
def result (s : State) : Option (List Byte) :=
  if s.phase = .done then some ((List.range s.ocnt).map (outByte s)) else none

/-- The host has written every byte of `MSG[0..MLEN-1]` since the last reset, as it must before a HASH (R283). -/
def messageWritten (s : State) : Bool := (List.range s.mlen).all fun a => (memRead s.msg a).isSome

/-- An address of a buffer of this size (20_memory.md R51, R52). -/
def inBuffer (a : Nat) (size : Option Nat) : Bool := !Config.exceeds (a + 1) size

/-- The host's next move touches neither buffer while a HASH is in progress: its duty of 20_memory.md R62. -/
def hostKeepsDuty (s : State) : Bool :=
  match s.host with
  | [] => true
  | .writeMsg bytes :: _ => !disturbs bytes s
  | .readOut _ :: _ => !busy s
  | .read _ :: _ => true
  | .write _ _ :: _ => true
  | .wait :: _ => true

/-- `n` steps of the machine, if none of them stops. -/
def runSteps (n : Nat) (s : State) : Option State :=
  match n with
  | 0 => some s
  | k + 1 =>
    match step s with
    | .next t => runSteps k t
    | .fault _ => none
    | .refused _ => none

/-- The commands of a list, one after another, each performed on the state the one before left. -/
def runCommands (is : List Instr) (s : State) : Option State :=
  match is with
  | [] => some s
  | i :: rest =>
    match exec i s with
    | .next t => runCommands rest t
    | .fault _ => none
    | .refused _ => none

/-- The host has no move pending, or its next move is one KCORE holds while BUSY (70_reset_and_hazards.md R290). -/
def hostWaits (s : State) : Bool :=
  match s.host with
  | [] => true
  | m :: _ => !neverHeld m s

/-- The command words of 60_exceptions.md R253, the reserved ones. -/
def reservedWord (c : Byte) : Bool :=
  decide ((0x03 ≤ c.toNat ∧ c.toNat ≤ 0x0F) ∨ (0x14 ≤ c.toNat ∧ c.toNat ≤ 0x17) ∨ (0x19 ≤ c.toNat ∧ c.toNat ≤ 0x1F) ∨
    (0x38 ≤ c.toNat ∧ c.toNat ≤ 0x3F) ∨ (0x58 ≤ c.toNat ∧ c.toNat ≤ 0x7F) ∨ (0x86 ≤ c.toNat ∧ c.toNat ≤ 0xFF))

/-- The number of squeeze steps, `max(1, ceil(OLEN / r))` (43_sponge_controller.md R207). -/
def squeezeCount (m : Mode) (o : Nat) : Nat := max 1 ((o + rate m - 1) / rate m)

/-- The state after the last absorb step on message `M`, `SA` (43_sponge_controller.md R208). -/
def absorbed (M : List Byte) (m : Mode) : Lanes := absorbBlocks (rate m) (M ++ pad m M.length) (blockCount m M.length)

/-- `KeccakF` applied `n` times. -/
def keccakFTimes (n : Nat) (A : Lanes) : Lanes :=
  match n with
  | 0 => A
  | k + 1 => keccakFTimes k (keccakF A)

/-- What holds of every state the machine reaches from reset, and is kept by every step. -/
structure Invariant (s : State) : Prop where
  /-- The parameters obey 00_scope.md R10. -/
  legalCfg : Config.legal s.cfg = true
  /-- MSG is in its one canonical form. -/
  msgCanonical : Memory.wf s.msg
  /-- OUT is in its one canonical form. -/
  outCanonical : Memory.wf s.out
  /-- Only addresses that MSG has are written (20_memory.md R51). -/
  msgInBuffer : ∀ c ∈ s.msg, inBuffer c.1 s.cfg.maxMlen = true
  /-- Only addresses that OUT has are written (20_memory.md R52, R60). -/
  outInBuffer : ∀ c ∈ s.out, inBuffer c.1 s.cfg.maxOlen = true
  /-- ERRCODE "is not 0 exactly when PHASE is ERROR" (10_state.md R33). -/
  errcodeExact : s.errcode ≠ .none ↔ s.phase = .error
  /-- MLEN is a number of LEN_W bits (R25). -/
  mlenFits : Config.fits s.mlen s.cfg.lenW = true
  /-- OLEN is a number of LEN_W bits (R26). -/
  olenFits : Config.fits s.olen s.cfg.lenW = true
  /-- OCNT is a number of LEN_W bits (R27). -/
  ocntFits : Config.fits s.ocnt s.cfg.lenW = true
  /-- In ABSORB some block is still to come, and nothing is written yet (43_sponge_controller.md R203). -/
  absorbOwes : s.phase = .absorb → s.blk < blockCount s.mode s.mlen ∧ s.ocnt = 0
  /-- In SQUEEZE bytes are still owed, unless none were asked for (R205, R206). -/
  squeezeOwes : s.phase = .squeeze → s.ocnt < s.olen ∨ (s.ocnt = 0 ∧ s.olen = 0)
  /-- A HASH in progress has passed its checks (60_exceptions.md R254). -/
  checked : busy s = true → contractBroken s.mode s.olen = false ∧ resourceShort s = false

end Sys2Proof.Machine
end

