-- ==== Sys2Proof/Certificates/Slice0/Obligations.lean ====
section
/-! DEFINITION. The statements for the provers, one per `Obligations.<Name>`; OBLIGATIONS.json says which rule of spec/
each formalises. A hypothesis on the state is one of: `ready` (PHASE is IDLE or DONE), `busy`, `hostWaits`, `Invariant`.

An equation `exec i s = .next { s with … }` states the command's frame too: every field not named is as it was. -/

open Sys2Proof Sys2Proof.Machine

namespace Sys2Proof.Machine

/-- One step of the 8-bit register of the round constants (42_round_permute.md R162). -/
def lfsrStep (r : Nat) : Nat := if (2 * r).testBit 8 then (2 * r) ^^^ 0x171 else 2 * r

/-- The register after `t` steps from 0x01. -/
def lfsr (t : Nat) : Nat :=
  match t with
  | 0 => 0x01
  | k + 1 => lfsrStep (lfsr k)

/-- `rc(t)` (R162). -/
def rcBit (t : Nat) : Bool := (lfsr (t % 255)).testBit 0

/-- The place of the rho walk at step `t` (41_permutation_steps.md R135). -/
def walk (t : Nat) : Fin 5 × Fin 5 :=
  match t with
  | 0 => (1, 0)
  | k + 1 => ((walk k).2, 2 * (walk k).1 + 3 * (walk k).2)

/-- The eight bits of a byte, least significant first (20_memory.md R56). -/
def byteBits (b : Byte) : List Bool := (List.range 8).map b.getLsbD

end Sys2Proof.Machine

/-! ## Encoding -/

/-- A few words of the opcode map, written out from their encodings (30_encoding.md R86). -/
def Obligations.SpotWordsDecode : Prop :=
  decode 0b00000000#8 = .instr .nop ∧ decode 0b00000001#8 = .instr .clr ∧ decode 0b00010011#8 = .instr .chi ∧
    decode 0b00011000#8 = .instr .keccakf ∧ decode 0b00101100#8 = .instr (.iota 12) ∧
    decode 0b01010111#8 = .instr (.round 23) ∧ decode 0b10000000#8 = .instr .hashSha3_224 ∧
    decode 0b10000101#8 = .instr .hashShake256 ∧ decode 0b00111000#8 = .reserved .roundIndex ∧
    decode 0b10000110#8 = .reserved .modeNumber

/-- Decoding the word of a well-formed command gives the command back (R81 to R87). -/
def Obligations.DecodeOfEncode : Prop :=
  ∀ i : Instr, i.wellFormed = true → decode (encode i) = .instr i

/-- Each word has one meaning: a word that decodes to a command is that command's word, and the command is well formed;
the words that decode to none are the reserved ones of 60_exceptions.md R253 (R86, R88). -/
def Obligations.EncodeOfDecode : Prop :=
  ∀ c : Byte,
    (∀ i, decode c = .instr i → i.wellFormed = true ∧ encode i = c) ∧
      ((∃ why, decode c = .reserved why) ↔ reservedWord c = true)

/-! ## Steps and commands -/

/-- A step runs the decoded command: where the machine is not BUSY and the host's next move is the write of a command
word, the step is `exec` of the command, on the state from which the move has been taken (10_state.md R35). Where it is not
BUSY and the host has no move pending, nothing changes: KCORE "keeps all state" (60_exceptions.md R270) and accesses nothing
"except while executing a command" (20_memory.md R61). -/
def Obligations.StepRunsDecodedCommand : Prop :=
  (∀ (s : State) (c : Byte) (rest : List HostMove) (i : Instr),
    s.resets = 0 → busy s = false → s.host = .write 0x00 c.toNat :: rest → decode c = .instr i →
      step s = exec i { s with host := rest }) ∧
    ∀ s : State, s.resets = 0 → busy s = false → s.host = [] → step s = .next s

/-- A reserved word written in IDLE or DONE raises IllegalCommand and changes nothing else (60_exceptions.md R253,
30_encoding.md R88). -/
def Obligations.ReservedWordRaisesIllegalCommand : Prop :=
  ∀ (s : State) (c : Byte) (rest : List HostMove),
    s.resets = 0 → ready s → s.host = .write 0x00 c.toNat :: rest → reservedWord c = true →
      step s = .next { s with host := rest, phase := .error, errcode := .illegalCommand }

/-- IOTA and ROUND with a round index of 24 to 31 are no such command: `exec` treats them as the reserved word they are
encoded as (30_encoding.md R84; the form outside the encoding is the model's choice, log 14). -/
def Obligations.RoundIndexAbove23IsReserved : Prop :=
  ∀ (s : State) (ir : BitVec 5), 23 < ir.toNat → ready s →
    exec (.iota ir) s = .next { s with phase := .error, errcode := .illegalCommand } ∧
      exec (.round ir) s = .next { s with phase := .error, errcode := .illegalCommand }

/-- In ERROR every command word but CLR and NOP is ignored: it "changes nothing, raises nothing, and ERRCODE keeps the
code of the first error" (60_exceptions.md R257). -/
def Obligations.ErrorPhaseIgnoresCommands : Prop :=
  ∀ (s : State) (c : Byte) (rest : List HostMove),
    s.resets = 0 → s.phase = .error → s.host = .write 0x00 c.toNat :: rest → c ≠ encode .clr →
      step s = .next { s with host := rest }

/-- While BUSY a command has no effect: it is held (44_host_commands.md R235). -/
def Obligations.BusyCommandHasNoEffect : Prop :=
  ∀ (s : State) (i : Instr), busy s = true → exec i s = .next s

/-- What no command's own transition writes: MLEN, OLEN, MSG and OUT (10_state.md R25, R26, 20_memory.md R51, R53: OUT is
written by the squeeze steps), the parameters, and nothing of the host's. -/
def Obligations.NoCommandWritesLengthsOrBuffers : Prop :=
  ∀ (i : Instr) (s t : State), exec i s = .next t →
    t.mlen = s.mlen ∧ t.olen = s.olen ∧ t.msg = s.msg ∧ t.out = s.out ∧ t.cfg = s.cfg ∧ t.host = s.host ∧
      t.answers = s.answers ∧ t.resets = s.resets ∧ t.era = s.era

/-! ## NOP, CLR, INIT -/

/-- NOP: nothing, in every phase (44_host_commands.md R230). -/
def Obligations.NopChangesNothing : Prop :=
  encode .nop = 0x00#8 ∧ ∀ s : State, exec .nop s = .next s

/-- CLR: PHASE IDLE and ERRCODE 0 from IDLE, DONE and ERROR; nothing else changes; STATUS is then 0x00; held while BUSY
(44_host_commands.md R231). -/
def Obligations.ClrReturnsToIdle : Prop :=
  encode .clr = 0x01#8 ∧
    ∀ s : State,
      (busy s = false →
        exec .clr s = .next { s with phase := .idle, errcode := .none } ∧
          statusByte { s with phase := .idle, errcode := .none } = 0x00#8) ∧
      (busy s = true → exec .clr s = .next s)

/-- INIT: all 25 lanes zero, PHASE IDLE, nothing else; ignored in ERROR (43_sponge_controller.md R190). -/
def Obligations.InitZeroesLanes : Prop :=
  encode .init = 0x02#8 ∧
    ∀ s : State,
      (ready s → ∃ A : Lanes,
        exec .init s = .next { s with lanes := A, phase := .idle } ∧ ∀ x y, A.lane x y = 0x0000000000000000#64) ∧
      (¬ready s → exec .init s = .next s)

/-! ## The sub-steps -/

/-- `ROTL64(v, n)`: bit `i` of `v` becomes bit `(i + n) mod 64`; and as arithmetic (40_lane_primitives.md R110). -/
def Obligations.RotationMovesBits : Prop :=
  ∀ (v : Lane) (n : Nat),
    (∀ i, i < 64 → (rotl64 v n).getLsbD ((i + n) % 64) = v.getLsbD i) ∧
      (n % 64 = 0 → rotl64 v n = v) ∧
      (n % 64 ≠ 0 →
        (rotl64 v n).toNat = (v.toNat * 2 ^ (n % 64)) % 2 ^ 64 + v.toNat / 2 ^ (64 - n % 64))

/-- THETA (41_permutation_steps.md R130). -/
def Obligations.ThetaMixesColumns : Prop :=
  encode .theta = 0x10#8 ∧
    ∀ s : State, ready s → ∃ (A : Lanes) (C D : Fin 5 → Lane),
      (∀ x, C x =
        s.lanes.lane x 0 ^^^ s.lanes.lane x 1 ^^^ s.lanes.lane x 2 ^^^ s.lanes.lane x 3 ^^^ s.lanes.lane x 4) ∧
      (∀ x, D x = C (x + 4) ^^^ rotl64 (C (x + 1)) 1) ∧
      (∀ x y, A.lane x y = s.lanes.lane x y ^^^ D x) ∧
      exec .theta s = .next { s with lanes := A, phase := .idle }

/-- RHO (R133) with the offsets of R134. -/
def Obligations.RhoRotatesLanes : Prop :=
  encode .rho = 0x11#8 ∧
    (List.range 25).map (fun k => rhoOffset (columnOf k) (rowOf k)) =
      [0, 1, 62, 28, 27, 36, 44, 6, 55, 20, 3, 10, 43, 25, 39, 41, 45, 15, 21, 8, 18, 2, 61, 56, 14] ∧
    ∀ s : State, ready s → ∃ A : Lanes,
      (∀ x y, A.lane x y = rotl64 (s.lanes.lane x y) (rhoOffset x y)) ∧
        exec .rho s = .next { s with lanes := A, phase := .idle }

/-- The rho offsets are those of the walk of R135, which visits each place but the origin once. -/
def Obligations.RhoOffsetsFollowWalk : Prop :=
  rhoOffset 0 0 = 0 ∧
    (∀ t : Fin 24, rhoOffset (walk t.val).1 (walk t.val).2 = ((t.val + 1) * (t.val + 2) / 2) % 64) ∧
    ((List.range 24).map walk).Nodup ∧ ((0, 0) : Fin 5 × Fin 5) ∉ (List.range 24).map walk

/-- PI: the lane at `(x, y)` moves to `(y, (2x + 3y) mod 5)` (R136). -/
def Obligations.PiMovesLanes : Prop :=
  encode .pi = 0x12#8 ∧
    ∀ s : State, ready s → ∃ A : Lanes,
      (∀ x y, A.lane y (2 * x + 3 * y) = s.lanes.lane x y) ∧
        exec .pi s = .next { s with lanes := A, phase := .idle }

/-- CHI, all right-hand lanes being those from before (R139, R140). -/
def Obligations.ChiMixesRows : Prop :=
  encode .chi = 0x13#8 ∧
    ∀ s : State, ready s → ∃ A : Lanes,
      (∀ x y, A.lane x y =
        s.lanes.lane x y ^^^ (~~~(s.lanes.lane (x + 1) y) &&& s.lanes.lane (x + 2) y)) ∧
      exec .chi s = .next { s with lanes := A, phase := .idle }

/-- IOTA ir: only `A[0,0]` changes, by XOR with `RC[ir]` (R142). -/
def Obligations.IotaAddsRoundConstant : Prop :=
  ∀ (ir : BitVec 5) (h : ir.toNat < 24),
    (encode (.iota ir)).toNat = 0x20 + ir.toNat ∧
      ∀ s : State, ready s → ∃ A : Lanes,
        A.lane 0 0 = s.lanes.lane 0 0 ^^^ roundConstant ⟨ir.toNat, h⟩ ∧
          (∀ x y, ¬(x = 0 ∧ y = 0) → A.lane x y = s.lanes.lane x y) ∧
          exec (.iota ir) s = .next { s with lanes := A, phase := .idle }

/-- The round constants are those of the LFSR of 42_round_permute.md R162. -/
def Obligations.RoundConstantsFollowLfsr : Prop :=
  ∀ ir : Fin 24,
    (∀ j : Fin 7, (roundConstant ir).getLsbD (2 ^ j.val - 1) = rcBit (j.val + 7 * ir.val)) ∧
      (∀ b : Fin 64, b.val ∉ [0, 1, 3, 7, 15, 31, 63] → (roundConstant ir).getLsbD b.val = false)

/-! ## The round and the permutation -/

/-- ROUND ir: the five sub-steps in order (42_round_permute.md R160, R164). -/
def Obligations.RoundAppliesFiveSubsteps : Prop :=
  ∀ (ir : BitVec 5) (h : ir.toNat < 24),
    (encode (.round ir)).toNat = 0x40 + ir.toNat ∧
      ∀ s : State, ready s →
        exec (.round ir) s =
          .next { s with lanes := iota ⟨ir.toNat, h⟩ (chi (pi (rho (theta s.lanes)))), phase := .idle }

/-- KECCAKF: the 24 rounds, `ir` ascending from 0, on the lanes; PHASE IDLE; RND is left a free value (42_round_permute.md
R165, 10_state.md R32). -/
def Obligations.KeccakfAppliesAllRounds : Prop :=
  encode .keccakf = 0x18#8 ∧
    ∀ s : State, ready s → ∃ (r : Fin 24) (d : Nat),
      exec .keccakf s =
        .next { s with
          lanes := (List.finRange 24).foldl (fun A ir => iota ir (chi (pi (rho (theta A))))) s.lanes
          phase := .idle
          rnd := r
          draws := d }

/-- The two equivalences between commands (30_encoding.md R102): `ROUND ir` is `THETA ; RHO ; PI ; CHI ; IOTA ir`, and
`KECCAKF` has the effect on the lanes of `ROUND 0 ; ROUND 1 ; ... ; ROUND 23`. -/
def Obligations.CommandEquivalences : Prop :=
  ∀ s : State, ready s →
    (∀ ir : BitVec 5, ir.toNat < 24 → ∃ t,
      exec (.round ir) s = .next t ∧ runCommands [.theta, .rho, .pi, .chi, .iota ir] s = some t) ∧
      (∃ t u, exec .keccakf s = .next t ∧
        runCommands ((List.range 24).map fun k => .round (BitVec.ofNat 5 k)) s = some u ∧ t.lanes = u.lanes)

/-- The permutation is a bijection on the states (42_round_permute.md R167). -/
def Obligations.KeccakFBijective : Prop :=
  (∀ A B : Lanes, keccakF A = keccakF B → A = B) ∧ ∀ B : Lanes, ∃ A : Lanes, keccakF A = B

/-- The permutation commands by phase (41_permutation_steps.md R145): performed in IDLE and DONE, with PHASE IDLE and
MLEN, OLEN, OCNT, ERRCODE, MSG and OUT unchanged; ignored in ERROR; no effect while BUSY; none raises an error. -/
def Obligations.PermutationCommandsByPhase : Prop :=
  ∀ (i : Instr) (s : State), i.wellFormed = true →
    (i ∈ [.theta, .rho, .pi, .chi, .keccakf] ∨ (∃ ir, i = .iota ir) ∨ ∃ ir, i = .round ir) →
      (ready s → ∃ t, exec i s = .next t ∧ t.phase = .idle ∧ t.mlen = s.mlen ∧ t.olen = s.olen ∧ t.ocnt = s.ocnt ∧
        t.errcode = s.errcode ∧ t.msg = s.msg ∧ t.out = s.out ∧ t.mode = s.mode ∧ t.blk = s.blk) ∧
      (¬ready s → exec i s = .next s)

/-! ## The byte view, STATUS -/

/-- The byte view: `S[i]` is bits `8*(i mod 8)+7 : 8*(i mod 8)` of `L[i div 8]`; a lane is its eight bytes, least
significant first (10_state.md R22, R54). -/
def Obligations.ByteViewIsLittleEndian : Prop :=
  ∀ A : Lanes,
    (∀ i, i < 200 → (stateByte A i).toNat = (laneAt A (i / 8)).toNat / 2 ^ (8 * (i % 8)) % 2 ^ 8) ∧
      (∀ k, k < 25 → (laneAt A k).toNat =
        (stateByte A (8 * k)).toNat + 2 ^ 8 * (stateByte A (8 * k + 1)).toNat +
          2 ^ 16 * (stateByte A (8 * k + 2)).toNat + 2 ^ 24 * (stateByte A (8 * k + 3)).toNat +
          2 ^ 32 * (stateByte A (8 * k + 4)).toNat + 2 ^ 40 * (stateByte A (8 * k + 5)).toNat +
          2 ^ 48 * (stateByte A (8 * k + 6)).toNat + 2 ^ 56 * (stateByte A (8 * k + 7)).toNat)

/-- STATUS: PHASE in bits 2:0, ERRCODE in bits 5:4, bits 3, 6, 7 zero (10_state.md R34), with the numbers of the phases
(R30) and of the errors (60_exceptions.md R250). -/
def Obligations.StatusLayout : Prop :=
  [Phase.idle, .absorb, .squeeze, .done, .error].map phaseCode = [0, 1, 2, 3, 4] ∧
  [ErrCode.none, .contractViolation, .resourceExhaustion, .illegalCommand].map errNumber = [0, 1, 2, 3] ∧
  ∀ s : State,
    (statusByte s).extractLsb' 0 3 = phaseCode s.phase ∧ (statusByte s).extractLsb' 4 2 = errNumber s.errcode ∧
      (statusByte s).getLsbD 3 = false ∧ (statusByte s).getLsbD 6 = false ∧ (statusByte s).getLsbD 7 = false

/-! ## Mode records and padding -/

/-- The six mode records: for each mode its number, rate, capacity, domain suffix (first bit first), fixed output length
where the mode has one, and first padding byte (43_sponge_controller.md R180, 30_encoding.md R85). -/
def Obligations.ModeRecords : Prop :=
  ([Mode.sha3_224, .sha3_256, .sha3_384, .sha3_512, .shake128, .shake256].map fun m =>
      ((modeNumber m).toNat, params m)) =
    [(0, ⟨144, 56, [false, true], some 28, 0x06#8⟩), (1, ⟨136, 64, [false, true], some 32, 0x06#8⟩),
      (2, ⟨104, 96, [false, true], some 48, 0x06#8⟩), (3, ⟨72, 128, [false, true], some 64, 0x06#8⟩),
      (4, ⟨168, 32, [true, true, true, true], none, 0x1F#8⟩), (5, ⟨136, 64, [true, true, true, true], none, 0x1F#8⟩)]

/-- The invariants of the six records: `rate + capacity = 200` and the rate a multiple of 8 (43_sponge_controller.md R181);
and, an inference that R181 itself marks as derived from R180 and R205, where the output is fixed its size is at most the
rate and half the capacity ("the source does not say so and nothing depends on it"). -/
def Obligations.ModeRecordInvariants : Prop :=
  ∀ m : Mode,
    (params m).rateBytes + (params m).capacityBytes = 200 ∧ (params m).rateBytes % 8 = 0 ∧
      (∀ f, (params m).fixedOutput = some f → f ≤ (params m).rateBytes ∧ (params m).capacityBytes = 2 * f)

/-- The padding rule in bits: after the message the suffix, a 1, the least number of 0s, a 1, packed least significant bit
first, to a multiple of the rate (43_sponge_controller.md R183). -/
def Obligations.PaddingBits : Prop :=
  ∀ (m : Mode) (n : Nat), ∃ j,
    (pad m n).flatMap byteBits = (params m).suffixBits ++ [true] ++ List.replicate j false ++ [true] ∧
      (8 * n + (params m).suffixBits.length + 1 + j + 1) % (8 * rate m) = 0 ∧ j < 8 * rate m

/-- The padding region has `q = r - (n mod r)` bytes, 1 to `r`: the first padding byte, zeros, 0x80, the two merged where
`q` is 1; and the padded message is `NB` whole blocks (43_sponge_controller.md R184). -/
def Obligations.PaddedMessageFillsBlocks : Prop :=
  ∀ (m : Mode) (M : List Byte),
    (rate m - M.length % rate m = 1 → pad m M.length = [(params m).suffixByte ||| 0x80#8]) ∧
      (2 ≤ rate m - M.length % rate m →
        pad m M.length =
          [(params m).suffixByte] ++ List.replicate (rate m - M.length % rate m - 2) 0x00#8 ++ [0x80#8]) ∧
      (pad m M.length).length = rate m - M.length % rate m ∧ 1 ≤ (pad m M.length).length ∧
      (pad m M.length).length ≤ rate m ∧
      (M ++ pad m M.length).length = rate m * (M.length / rate m + 1)

/-- `PByte` is the byte of the padded message (43_sponge_controller.md R185). -/
def Obligations.PByteIsPaddedByte : Prop :=
  ∀ (m : Mode) (M : List Byte) (i : Nat), i < rate m * blockCount m M.length →
    (M ++ pad m M.length)[i]? = some (pByte (fun a => M.getD a 0x00#8) m M.length i)

/-! ## HASH -/

/-- A HASH command that passes its checks starts: OCNT 0, MODE, lanes zero, BLK 0, ABSORB, nothing else
(43_sponge_controller.md R201). It says so of HASH.SHA3_224, HASH.SHA3_256, HASH.SHA3_384, HASH.SHA3_512, HASH.SHAKE128
and HASH.SHAKE256. -/
def Obligations.HashStarts : Prop :=
  ∀ (m : Mode) (s : State), ready s → (∀ f, (params m).fixedOutput = some f → s.olen = f) →
    Config.exceeds s.mlen s.cfg.maxMlen = false → Config.exceeds s.olen s.cfg.maxOlen = false →
      (encode (hashInstr m)).toNat = 0x80 + (modeNumber m).toNat ∧
        ∃ A : Lanes, (∀ x y, A.lane x y = 0#64) ∧
          exec (hashInstr m) s =
            .next { s with ocnt := 0, mode := m, lanes := A, blk := 0, phase := .absorb, disturbed := false }

/-- ContractViolation: a fixed-digest HASH accepted while OLEN is not the mode's fixed size; OCNT is 0 and nothing else
changes, whatever MLEN is (60_exceptions.md R251, R255, R256). The two SHAKE commands never raise it. -/
def Obligations.HashContractViolation : Prop :=
  ∀ (m : Mode) (s : State), ready s →
    (∀ f, (params m).fixedOutput = some f → s.olen ≠ f →
      exec (hashInstr m) s = .next { s with ocnt := 0, phase := .error, errcode := .contractViolation }) ∧
    ((params m).fixedOutput = none → ∀ t, exec (hashInstr m) s = .next t → s.errcode ≠ .contractViolation →
      t.errcode ≠ .contractViolation)

/-- ResourceExhaustion: MLEN > MAX_MLEN or OLEN > MAX_OLEN, looked at after the contract check (60_exceptions.md R252,
R255, R256). -/
def Obligations.HashResourceExhaustion : Prop :=
  ∀ (m : Mode) (s : State), ready s → (∀ f, (params m).fixedOutput = some f → s.olen = f) →
    ((∃ k, s.cfg.maxMlen = some k ∧ k < s.mlen) ∨ (∃ k, s.cfg.maxOlen = some k ∧ k < s.olen)) →
      exec (hashInstr m) s = .next { s with ocnt := 0, phase := .error, errcode := .resourceExhaustion }

/-- Absorb step (43_sponge_controller.md R203): bytes `S[0..r-1]` XORed with the padded message's, the rest as they were,
then the permutation; BLK counts, and at the last block PHASE is SQUEEZE; MSG, OUT and all else unchanged (RND and, from
SQUEEZE on, BLK hold free values). -/
def Obligations.AbsorbStepAbsorbsBlock : Prop :=
  ∀ s : State, s.resets = 0 → s.phase = .absorb → hostWaits s = true →
    ∃ (B : Lanes) (r : Fin 24) (d b : Nat),
      (∀ i, i < 200 → stateByte B i =
        if i < rate s.mode then stateByte s.lanes i ^^^ pByte (msgByte s) s.mode s.mlen (s.blk * rate s.mode + i)
        else stateByte s.lanes i) ∧
      (s.blk + 1 = s.mlen / rate s.mode + 1 →
        step s = .next { s with lanes := keccakF B, phase := .squeeze, rnd := r, draws := d, blk := b }) ∧
      (s.blk + 1 ≠ s.mlen / rate s.mode + 1 →
        step s = .next { s with lanes := keccakF B, blk := s.blk + 1, rnd := r, draws := d })

/-- Squeeze step (43_sponge_controller.md R205): the first `take` bytes of the state go to OUT from OCNT on and no other
byte of OUT changes; OCNT counts; at `OCNT = OLEN` PHASE is DONE, else the state is permuted. -/
def Obligations.SqueezeStepEmitsBlock : Prop :=
  ∀ (s : State) (take : Nat), s.resets = 0 → s.phase = .squeeze → hostWaits s = true → s.disturbed = false →
    take = min (rate s.mode) (s.olen - s.ocnt) →
      ∃ O : Memory,
        (∀ a, memRead O a =
          if s.ocnt ≤ a ∧ a < s.ocnt + take then some (stateByte s.lanes (a - s.ocnt)) else memRead s.out a) ∧
        (s.ocnt + take = s.olen → ∃ (A : Lanes) (m : Mode) (d : Nat),
          step s = .next { s with
            out := O, ocnt := s.ocnt + take, phase := .done, lanes := A, mode := m, draws := d }) ∧
        (s.ocnt + take ≠ s.olen → ∃ (r : Fin 24) (d : Nat),
          step s = .next { s with
            out := O, ocnt := s.ocnt + take, lanes := keccakF s.lanes, rnd := r, draws := d })

/-- Zero-length output: the first squeeze step writes nothing and goes to DONE (43_sponge_controller.md R206). -/
def Obligations.ZeroLengthOutputWritesNothing : Prop :=
  ∀ s : State, s.resets = 0 → s.phase = .squeeze → hostWaits s = true → s.olen = 0 → s.ocnt = 0 →
    ∃ t, step s = .next t ∧ t.phase = .done ∧ t.ocnt = 0 ∧ t.out = s.out

/-- A HASH in progress always finishes, whatever moves the host has pending: "no host action can disable" the controller's
step (70_reset_and_hazards.md R296). The host's moves still pending at the end are those it had, less the ones let through;
where the busy hold lets none through, all of them. -/
def Obligations.BusyHashFinishes : Prop :=
  ∀ s : State, Invariant s → s.resets = 0 → busy s = true →
    ∃ n t, runSteps n s = some t ∧ t.phase = .done ∧ t.ocnt = s.olen ∧ t.host <:+ s.host ∧
      (hostWaits s = true → t.host = s.host)

/-- The controller's steps compute SpongeHash: from a HASH command that passes its checks, exactly `NB` absorb steps and
`max(1, ceil(OLEN / r))` squeeze steps later PHASE is DONE for the first time, OCNT = OLEN, `OUT[0..OLEN-1]` is SpongeHash of the
message, and OUT above, MSG, MLEN and OLEN are as they were (43_sponge_controller.md R200, R207). -/
def Obligations.HashComputesSpongeHash : Prop :=
  ∀ (m : Mode) (s : State), ready s → s.resets = 0 → s.host = [] → resourceShort s = false →
    ∀ Z, spongeHash (message s) m s.olen = some Z →
      ∃ b t, exec (hashInstr m) s = .next b ∧
        runSteps (blockCount m s.mlen + squeezeCount m s.olen) b = some t ∧
        (∀ n u, n < blockCount m s.mlen + squeezeCount m s.olen → runSteps n b = some u → busy u = true) ∧
        t.phase = .done ∧ t.ocnt = s.olen ∧ Z.length = s.olen ∧
        (∀ j, j < s.olen → memRead t.out j = Z[j]?) ∧ (∀ a, s.olen ≤ a → memRead t.out a = memRead s.out a) ∧
        t.msg = s.msg ∧ t.mlen = s.mlen ∧ t.olen = s.olen ∧ t.errcode = s.errcode

/-- Closed form of the output: byte `j` is byte `j mod r` of `KeccakF` applied `j div r` times to the absorbed state
(43_sponge_controller.md R208). -/
def Obligations.OutputByteClosedForm : Prop :=
  ∀ (M : List Byte) (m : Mode) (o j : Nat), j < o →
    (spongeOutput M m o)[j]? = some (stateByte (keccakFTimes (j / rate m) (absorbed M m)) (j % rate m))

/-- The extendable-output property: a shorter output is a prefix of a longer one (43_sponge_controller.md R208). -/
def Obligations.ShorterOutputIsPrefix : Prop :=
  ∀ (M : List Byte) (m : Mode) (n₁ n₂ : Nat), n₁ < n₂ → spongeOutput M m n₁ = (spongeOutput M m n₂).take n₁

/-- A hash depends on the message, its length, the output length and the mode alone: two machines that agree on these, and
differ in anything else, reach the same result (43_sponge_controller.md R209). -/
def Obligations.HashIndependentOfHistory : Prop :=
  ∀ (m : Mode) (s s' b b' t t' : State) (n : Nat),
    ready s → ready s' → s.resets = 0 → s'.resets = 0 → s.host = [] → s'.host = [] →
      s.olen = s'.olen → message s = message s' →
      exec (hashInstr m) s = .next b → exec (hashInstr m) s' = .next b' → b.phase = .absorb → b'.phase = .absorb →
      runSteps n b = some t → runSteps n b' = some t' → t.phase = .done →
        t'.phase = .done ∧ result t = result t'

/-- The controller's sequencing never depends on a lane or on a message byte (40_lane_primitives.md R116). -/
def Obligations.ControlIndependentOfData : Prop :=
  ∀ s s' : State, s.phase = s'.phase → s.mode = s'.mode → s.mlen = s'.mlen → s.olen = s'.olen → s.ocnt = s'.ocnt →
    s.blk = s'.blk →
      (controllerStep s).phase = (controllerStep s').phase ∧ (controllerStep s).ocnt = (controllerStep s').ocnt ∧
        ((controllerStep s).phase = .absorb → (controllerStep s).blk = (controllerStep s').blk)

/-- An absorb step reads no byte of MSG at or above MLEN (43_sponge_controller.md R204, 20_memory.md R51). -/
def Obligations.AbsorbReadsOnlyBelowMlen : Prop :=
  ∀ (s : State) (msg' : Memory) (era' : Nat), s.phase = .absorb →
    (∀ a, a < s.mlen → msgByte { s with msg := msg', era := era' } a = msgByte s a) →
      (controllerStep { s with msg := msg', era := era' }).lanes = (controllerStep s).lanes

/-- In ABSORB and SQUEEZE nothing raises an error (60_exceptions.md R254) and no step stops, whatever move the host has
pending and whether or not a reset is still to come: KCORE is never stuck (70_reset_and_hazards.md R296). -/
def Obligations.NoErrorWhileBusy : Prop :=
  ∀ s : State, busy s = true →
    ∃ t, step s = .next t ∧ t.phase ≠ .error ∧ (s.resets = 0 → t.errcode = s.errcode)

/-! ## The host -/

/-- The busy hold: while BUSY a held access stays pending and the step is the controller's own
(70_reset_and_hazards.md R290). Two kinds of held move are the model's choice: that `WAIT`, which stands for STATUS reads
(30_encoding.md R91), is one move that waits unanswered while BUSY (DESIGN CHOICE, log 9), and that a buffer access beyond the
buffer's size waits until KCORE is quiescent (DESIGN CHOICE, log 12). -/
def Obligations.HeldAccessesWait : Prop :=
  ∀ (s : State) (m : HostMove) (rest : List HostMove),
    s.resets = 0 → busy s = true → s.host = m :: rest →
      (m = .wait ∨ (∃ n v, m = .write n v) ∨ (∃ n, m = .read n ∧ n ≠ 0x01) ∨
          (∃ bytes, m = .writeMsg bytes ∧ Config.exceeds bytes.length s.cfg.maxMlen = true) ∨
          ∃ n, m = .readOut n ∧ Config.exceeds n s.cfg.maxOlen = true) →
        ∃ t, step s = .next t ∧ t = controllerStep s ∧ t.host = s.host ∧ t.answers = s.answers

/-- A read of STATUS is never held: while BUSY it is answered and nothing else happens, or the controller steps first (R290;
which comes first is the free choice `Config.hostFirst`, DESIGN CHOICE, log 7). -/
def Obligations.StatusReadAnsweredWhileBusy : Prop :=
  ∀ (s : State) (rest : List HostMove), s.resets = 0 → busy s = true → s.host = .read 0x01 :: rest →
    step s =
      if Config.hostFirst s.draws then
        .next { s with host := rest, draws := s.draws + 1, answers := .reg 0x01 (statusByte s).toNat :: s.answers }
      else .next (controllerStep { s with draws := s.draws + 1 })

/-- A register read returns the register's value, 0 for CMD and reserved numbers, and changes nothing
(10_state.md R36, R37, 44_host_commands.md R233); `WAIT` ends with such a read of STATUS, which shows neither ABSORB nor
SQUEEZE (30_encoding.md R91; one move for the whole poll is the model's choice, log 9). -/
def Obligations.RegisterReads : Prop :=
  ∀ (s : State) (rest : List HostMove), s.resets = 0 → busy s = false →
    (∀ n, s.host = .read n :: rest →
      ∃ v, step s = .next { s with host := rest, answers := .reg n v :: s.answers } ∧
        (n = 0x00 → v = 0) ∧ (n = 0x01 → v = (statusByte s).toNat) ∧ (n = 0x02 → v = s.mlen) ∧
        (n = 0x03 → v = s.olen) ∧ (n = 0x04 → v = s.ocnt) ∧
        (∀ k, k < 25 → n = 0x20 + k → v = (laneAt s.lanes k).toNat) ∧
        (0x05 ≤ n ∧ n ≤ 0x1F → v = 0) ∧ (0x39 ≤ n → v = 0)) ∧
      (s.host = .wait :: rest →
        step s = .next { s with host := rest, answers := .reg 0x01 (statusByte s).toNat :: s.answers } ∧
          (statusByte s).extractLsb' 0 3 ≠ phaseCode .absorb ∧
          (statusByte s).extractLsb' 0 3 ≠ phaseCode .squeeze)

/-- A register write of a value of the register's width: MLEN, OLEN and LANE[k] store it, STATUS, OCNT and reserved
numbers ignore it; none changes PHASE or ERRCODE (44_host_commands.md R234, 10_state.md R37). -/
def Obligations.RegisterWrites : Prop :=
  ∀ (s : State) (n v : Nat) (rest : List HostMove), s.resets = 0 → busy s = false → s.host = .write n v :: rest →
    (n = 0x02 → Config.fits v s.cfg.lenW = true → step s = .next { s with host := rest, mlen := v }) ∧
      (n = 0x03 → Config.fits v s.cfg.lenW = true → step s = .next { s with host := rest, olen := v }) ∧
      (∀ k, k < 25 → n = 0x20 + k → v < 2 ^ 64 → ∃ A : Lanes,
        step s = .next { s with host := rest, lanes := A } ∧ laneAt A k = BitVec.ofNat 64 v ∧
          ∀ j, j < 25 → j ≠ k → laneAt A j = laneAt s.lanes j) ∧
      (n = 0x01 ∨ n = 0x04 ∨ (0x05 ≤ n ∧ n ≤ 0x1F) ∨ 0x39 ≤ n → step s = .next { s with host := rest })

/-- `WRMSG` outside a HASH: MSG from address 0 takes the bytes and no other byte of MSG changes (30_encoding.md R91,
20_memory.md R51). -/
def Obligations.HostFillsMessage : Prop :=
  ∀ (s : State) (bytes : List Byte) (rest : List HostMove),
    s.resets = 0 → busy s = false → s.host = .writeMsg bytes :: rest →
      Config.exceeds bytes.length s.cfg.maxMlen = false →
        ∃ M : Memory, step s = .next { s with host := rest, msg := M } ∧
          ∀ a, memRead M a = if a < bytes.length then bytes[a]? else memRead s.msg a

/-- `RDOUT n` of at most MAX_OLEN bytes (30_encoding.md R91). Not BUSY, in IDLE, DONE and ERROR alike, it returns `n` bytes
from address 0, each the byte last written there since the last reset, unspecified where none was (the free byte of that
address, log 4), and changes nothing; in DONE with `n = OCNT` these are the result (70_reset_and_hazards.md R292). While BUSY it
returns unspecified bytes, or the controller steps first, by the free choice `Config.hostFirst` (20_memory.md R62; DESIGN
CHOICE, logs 7, 13). -/
def Obligations.ReadOutReturnsResult : Prop :=
  ∀ (s : State) (n : Nat) (rest : List HostMove), s.resets = 0 → s.host = .readOut n :: rest →
    Config.exceeds n s.cfg.maxOlen = false →
      (busy s = false → ∃ Z : List Byte, Z.length = n ∧
        (∀ a, a < n → Z[a]? = some ((memRead s.out a).getD (Config.freeOut s.era a))) ∧
        (s.phase = .done → n = s.ocnt → result s = some Z) ∧
        step s = .next { s with host := rest, answers := .out Z :: s.answers }) ∧
      (busy s = true → ∃ (Z : List Byte) (d e : Nat), Z.length = n ∧
        (∀ a, a < n → Z[a]? = some (Config.freeOut d a)) ∧
        step s =
          if Config.hostFirst s.draws then .next { s with host := rest, answers := .out Z :: s.answers, draws := e }
          else .next (controllerStep { s with draws := s.draws + 1 }))

/-- The host moves that stop the machine where it is not BUSY, each by name: `WRMSG` or `RDOUT` at an address the buffer does
not have (20_memory.md R51, R52), and `WR` of a value that is no value of the register's width. That these stop is the model's
choice (DESIGN CHOICE, logs 11, 12). -/
def Obligations.HostMoveStops : Prop :=
  ∀ (s : State) (m : HostMove) (rest : List HostMove), s.resets = 0 → busy s = false → s.host = m :: rest →
    (∀ (k : Nat) (bytes : List Byte), m = .writeMsg bytes → s.cfg.maxMlen = some k → k < bytes.length →
      step s = .refused .absentMsgAddress) ∧
      (∀ k n : Nat, m = .readOut n → s.cfg.maxOlen = some k → k < n → step s = .refused .absentOutAddress) ∧
      (∀ n v : Nat, m = .write n v →
        (n = 0x00 ∧ 2 ^ 8 ≤ v) ∨ ((n = 0x02 ∨ n = 0x03) ∧ Config.fits v s.cfg.lenW = false) ∨
            (0x20 ≤ n ∧ n ≤ 0x38 ∧ 2 ^ 64 ≤ v) →
          step s = .refused .valueNotOfWidth)

/-- The host writing MSG while BUSY (20_memory.md R62; that the model performs the move is DESIGN CHOICE, log 13). A step with
a `WRMSG` that fits in MSG next performs it, or the controller steps first (the free choice of log 7). Performed, the write
lands. Where it reaches `MSG[0..MLEN-1]`, the bytes of that HASH's output already in OUT become free bytes and the HASH is marked
as disturbed; where it does not (no byte given, or MLEN 0), nothing else changes. Until the HASH has completed it stays
marked, and every byte a squeeze step of it writes is a free byte. So every output byte of that HASH is a free byte of some
draw. A HASH whose host keeps its duty is never marked. -/
def Obligations.DisturbedHashOutputIsFree : Prop :=
  (∀ (s : State) (bytes : List Byte), busy s = true → bytes ≠ [] → s.mlen ≠ 0 →
    Config.exceeds bytes.length s.cfg.maxMlen = false →
      ∃ t d, performMove (.writeMsg bytes) s = .next t ∧ t.disturbed = true ∧ t.phase = s.phase ∧ t.lanes = s.lanes ∧
        t.ocnt = s.ocnt ∧
        (∀ a, memRead t.msg a = if a < bytes.length then bytes[a]? else memRead s.msg a) ∧
        (∀ a, memRead t.out a = if a < s.ocnt then some (Config.freeOut d a) else memRead s.out a)) ∧
    (∀ (s : State) (bytes : List Byte) (rest : List HostMove), s.resets = 0 → busy s = true →
      s.host = .writeMsg bytes :: rest → Config.exceeds bytes.length s.cfg.maxMlen = false →
        ∃ (M O : Memory) (d e : Nat),
          (∀ a, memRead M a = if a < bytes.length then bytes[a]? else memRead s.msg a) ∧
          (∀ a, memRead O a = if a < s.ocnt then some (Config.freeOut d a) else memRead s.out a) ∧
          step s =
            if Config.hostFirst s.draws then
              if bytes = [] ∨ s.mlen = 0 then .next { s with host := rest, msg := M, draws := e }
              else .next { s with host := rest, msg := M, out := O, disturbed := true, draws := e }
            else .next (controllerStep { s with draws := s.draws + 1 })) ∧
    (∀ (s : State) (take : Nat), s.resets = 0 → s.phase = .squeeze → hostWaits s = true → s.disturbed = true →
      take = min (rate s.mode) (s.olen - s.ocnt) →
        ∃ t d, step s = .next t ∧ t.ocnt = s.ocnt + take ∧ (t.phase = .done ↔ s.ocnt + take = s.olen) ∧
          ∀ a, memRead t.out a =
            if s.ocnt ≤ a ∧ a < s.ocnt + take then some (Config.freeOut d a) else memRead s.out a) ∧
    (∀ s t : State, s.resets = 0 → busy s = true → step s = .next t →
      (s.disturbed = true → t.disturbed = true) ∧ (hostKeepsDuty s = true → t.disturbed = s.disturbed))

/-! ## Reset and invariants -/

/-- The values after reset (10_state.md R41): of those the table states. -/
def Obligations.ResetValues : Prop :=
  State.reset.phase = .idle ∧ State.reset.errcode = .none ∧ statusByte State.reset = 0x00#8 ∧ State.reset.mlen = 0 ∧
    State.reset.olen = 0 ∧ State.reset.ocnt = 0

/-- A reset event: the values of R41 again, whatever KCORE was doing, with the host's moves and the parameters left alone;
and where a reset is still to come, a step takes it or is a step in which none lands (70_reset_and_hazards.md R280, R282;
which of the two is free, log 8). -/
def Obligations.ResetEventAbandonsHash : Prop :=
  ∀ s : State,
    (∀ t, t = resetEvent s →
      t.phase = .idle ∧ t.errcode = .none ∧ statusByte t = 0x00#8 ∧ t.mlen = 0 ∧ t.olen = 0 ∧ t.ocnt = 0 ∧
        t.msg = [] ∧ t.out = [] ∧ t.host = s.host ∧ t.cfg = s.cfg) ∧
      (∀ n, s.resets = n + 1 →
        step s = .next (resetEvent { s with resets := n }) ∨ step s = coreStep { s with draws := s.draws + 1 })

/-- The invariant holds at reset. -/
def Obligations.ResetMeetsInvariant : Prop :=
  Invariant State.reset

/-- Every step keeps the invariant. -/
def Obligations.StepKeepsInvariant : Prop :=
  ∀ s t : State, Invariant s → step s = .next t → Invariant t

/-- Every legal choice of the open parameters is one the implementation may have made, and its choice is legal
(00_scope.md R10). -/
def Obligations.ParametersLegal : Prop :=
  Config.legal Config.params = true ∧ ∀ p, Config.legal p = true → Config.legalize p = p

/-- ERROR is left only by CLR or by reset (60_exceptions.md R257, R258). -/
def Obligations.OnlyClrOrResetLeavesError : Prop :=
  ∀ s t : State, s.phase = .error → step s = .next t → t.phase ≠ .error →
    t.phase = .idle ∧
      (t.resets < s.resets ∨ ∃ rest, s.host = .write 0x00 (encode .clr).toNat :: rest)
end

