-- ==== Sys2Proof/Laws/Lanes.lean ====
section
/-! SUPPORT. The lanes by coordinate, by linear index and by byte. -/

namespace Sys2Proof

@[simp] theorem Five.get_ofFn {α : Type} (f : Fin 5 → α) (i : Fin 5) : (Five.ofFn f).get i = f i := by
  match i with
  | 0 => rfl
  | 1 => rfl
  | 2 => rfl
  | 3 => rfl
  | 4 => rfl

theorem Five.ext_get {α : Type} {v w : Five α} (h : ∀ i, v.get i = w.get i) : v = w := by
  cases v; cases w
  simpa [Five.get] using And.intro (h 0) ⟨h 1, h 2, h 3, h 4⟩

@[simp] theorem Lanes.lane_ofFn (f : Fin 5 → Fin 5 → Lane) (x y : Fin 5) : (Lanes.ofFn f).lane x y = f x y := by
  simp [Lanes.ofFn, Lanes.lane]

/-- Two lane arrays with the same 25 lanes are the same. -/
theorem Lanes.ext_lane {A B : Lanes} (h : ∀ x y, A.lane x y = B.lane x y) : A = B := by
  cases A; cases B
  exact congrArg Lanes.mk (Five.ext_get fun y => Five.ext_get fun x => h x y)

@[simp] theorem Lanes.ofFn_lane (A : Lanes) : Lanes.ofFn (fun x y => A.lane x y) = A :=
  Lanes.ext_lane fun x y => by simp

namespace Machine

@[simp] theorem columnOf_index (x y : Fin 5) : columnOf (x.val + 5 * y.val) = x := by
  apply Fin.ext; simp only [columnOf, Fin.ofNat]; omega

@[simp] theorem rowOf_index (x y : Fin 5) : rowOf (x.val + 5 * y.val) = y := by
  apply Fin.ext; simp only [rowOf, Fin.ofNat]; omega

/-- `L[x + 5*y] = A[x,y]` (10_state.md R21). -/
@[simp] theorem laneAt_index (A : Lanes) (x y : Fin 5) : laneAt A (x.val + 5 * y.val) = A.lane x y := by
  simp [laneAt]

/-- The linear index of the coordinates of `L[k]` is `k` (R21). -/
theorem index_of_coordinates {k : Nat} (hk : k < 25) : (columnOf k).val + 5 * (rowOf k).val = k := by
  simp [columnOf, rowOf, Fin.ofNat]; omega

@[simp] theorem laneAt_ofFn (f : Fin 5 → Fin 5 → Lane) (k : Nat) :
    laneAt (Lanes.ofFn f) k = f (columnOf k) (rowOf k) := by
  simp [laneAt]

@[simp] theorem laneAt_setLaneAt_self (A : Lanes) (k : Nat) (v : Lane) : laneAt (setLaneAt A k v) k = v := by
  simp [setLaneAt]

theorem laneAt_setLaneAt_of_ne (A : Lanes) {j k : Nat} (v : Lane) (hj : j < 25) (hk : k < 25) (h : j ≠ k) :
    laneAt (setLaneAt A k v) j = laneAt A j := by
  have hne : ¬(columnOf j = columnOf k ∧ rowOf j = rowOf k) := fun ⟨hc, hr⟩ =>
    h (by rw [← index_of_coordinates hj, ← index_of_coordinates hk, hc, hr])
  simp only [setLaneAt, laneAt_ofFn, hne, if_false]
  rfl

@[simp] theorem zeroLanes_lane (x y : Fin 5) : zeroLanes.lane x y = 0#64 := by simp [zeroLanes]

/-- Bit `8c + r` of a lane assembled from eight bytes is bit `r` of byte `c` (10_state.md R22). -/
theorem getLsbD_laneOfBytes (f : Nat → Byte) {c r : Nat} (hc : c < 8) (hr : r < 8) :
    (laneOfBytes f).getLsbD (8 * c + r) = (f c).getLsbD r := by
  simp only [laneOfBytes, BitVec.getLsbD_append]
  match c, hc with
  | 0, _ => simp [hr]
  | 1, _ => rw [if_neg (by omega), if_pos (by omega)]; congr 1; omega
  | 2, _ => rw [if_neg (by omega), if_neg (by omega), if_pos (by omega)]; congr 1; omega
  | 3, _ => rw [if_neg (by omega), if_neg (by omega), if_neg (by omega), if_pos (by omega)]; congr 1; omega
  | 4, _ =>
    rw [if_neg (by omega), if_neg (by omega), if_neg (by omega), if_neg (by omega), if_pos (by omega)]
    congr 1; omega
  | 5, _ =>
    rw [if_neg (by omega), if_neg (by omega), if_neg (by omega), if_neg (by omega), if_neg (by omega),
      if_pos (by omega)]
    congr 1; omega
  | 6, _ =>
    rw [if_neg (by omega), if_neg (by omega), if_neg (by omega), if_neg (by omega), if_neg (by omega),
      if_neg (by omega), if_pos (by omega)]
    congr 1; omega
  | 7, _ =>
    rw [if_neg (by omega), if_neg (by omega), if_neg (by omega), if_neg (by omega), if_neg (by omega),
      if_neg (by omega), if_neg (by omega)]
    congr 1; omega

/-- Byte `j` of a lane assembled from eight bytes is the `j`th of them (R22). -/
theorem laneByte_laneOfBytes (f : Nat → Byte) {j : Nat} (hj : j < 8) : laneByte (laneOfBytes f) j = f j := by
  apply BitVec.eq_of_getLsbD_eq
  intro b hb
  rw [laneByte, BitVec.getLsbD_extractLsb', getLsbD_laneOfBytes f hj hb]
  simp [hb]

/-- A lane is the lane of its eight bytes (R22). -/
theorem laneOfBytes_laneByte (v : Lane) : laneOfBytes (laneByte v) = v := by
  apply BitVec.eq_of_getLsbD_eq
  intro b hb
  have h : b = 8 * (b / 8) + b % 8 := (Nat.div_add_mod b 8).symm
  rw [h, getLsbD_laneOfBytes _ (by omega) (Nat.mod_lt b (by decide)), laneByte, BitVec.getLsbD_extractLsb']
  simp [Nat.mod_lt]

/-- The two views are one piece of state (R22): the byte `S[i]` of a state given by its bytes. -/
theorem stateByte_lanesOfBytes (f : Nat → Byte) {i : Nat} (hi : i < 200) : stateByte (lanesOfBytes f) i = f i := by
  have hk : i / 8 < 25 := by omega
  rw [stateByte, lanesOfBytes, laneAt_ofFn, laneByte_laneOfBytes _ (by omega), index_of_coordinates hk,
    Nat.div_add_mod]

/-- A state is the state of its 200 bytes (R22). -/
theorem lanesOfBytes_stateByte (A : Lanes) : lanesOfBytes (stateByte A) = A := by
  apply Lanes.ext_lane
  intro x y
  rw [lanesOfBytes, Lanes.lane_ofFn]
  have h : ∀ j, j < 8 → stateByte A (8 * (x.val + 5 * y.val) + j) = laneByte (A.lane x y) j := by
    intro j hj
    have h1 : (8 * (x.val + 5 * y.val) + j) / 8 = x.val + 5 * y.val := by omega
    have h2 : (8 * (x.val + 5 * y.val) + j) % 8 = j := by omega
    rw [stateByte, h1, h2, laneAt_index]
  rw [← laneOfBytes_laneByte (A.lane x y)]
  simp only [laneOfBytes, h _ (by decide : (0 : Nat) < 8), h _ (by decide : (1 : Nat) < 8),
    h _ (by decide : (2 : Nat) < 8), h _ (by decide : (3 : Nat) < 8), h _ (by decide : (4 : Nat) < 8),
    h _ (by decide : (5 : Nat) < 8), h _ (by decide : (6 : Nat) < 8), h _ (by decide : (7 : Nat) < 8)]

/-- Two states with the same 200 bytes are the same state (R22). -/
theorem Lanes.ext_byte {A B : Lanes} (h : ∀ i, i < 200 → stateByte A i = stateByte B i) : A = B := by
  rw [← lanesOfBytes_stateByte A, ← lanesOfBytes_stateByte B]
  refine congrArg Lanes.ofFn ?_
  funext x y
  have hb : ∀ j, j < 8 → stateByte A (8 * (x.val + 5 * y.val) + j) = stateByte B (8 * (x.val + 5 * y.val) + j) :=
    fun j hj => h _ (by omega)
  simp only [laneOfBytes, hb 0 (by decide), hb 1 (by decide), hb 2 (by decide), hb 3 (by decide), hb 4 (by decide),
    hb 5 (by decide), hb 6 (by decide), hb 7 (by decide)]

end Machine

end Sys2Proof
end

