-- ==== Sys2Proof/Laws/State.lean ====
section
/-! SUPPORT. One lemma per field per update of the state, so that no proof unfolds a record update. -/

namespace Sys2Proof.Machine

/-! ### setLanes -/

@[simp] theorem State.setLanes_lanes (s : State) (v : Lanes) : (s.setLanes v).lanes = v := rfl
@[simp] theorem State.setLanes_mlen (s : State) (v : Lanes) : (s.setLanes v).mlen = s.mlen := rfl
@[simp] theorem State.setLanes_olen (s : State) (v : Lanes) : (s.setLanes v).olen = s.olen := rfl
@[simp] theorem State.setLanes_ocnt (s : State) (v : Lanes) : (s.setLanes v).ocnt = s.ocnt := rfl
@[simp] theorem State.setLanes_mode (s : State) (v : Lanes) : (s.setLanes v).mode = s.mode := rfl
@[simp] theorem State.setLanes_blk (s : State) (v : Lanes) : (s.setLanes v).blk = s.blk := rfl
@[simp] theorem State.setLanes_phase (s : State) (v : Lanes) : (s.setLanes v).phase = s.phase := rfl
@[simp] theorem State.setLanes_rnd (s : State) (v : Lanes) : (s.setLanes v).rnd = s.rnd := rfl
@[simp] theorem State.setLanes_errcode (s : State) (v : Lanes) : (s.setLanes v).errcode = s.errcode := rfl
@[simp] theorem State.setLanes_msg (s : State) (v : Lanes) : (s.setLanes v).msg = s.msg := rfl
@[simp] theorem State.setLanes_out (s : State) (v : Lanes) : (s.setLanes v).out = s.out := rfl
@[simp] theorem State.setLanes_cfg (s : State) (v : Lanes) : (s.setLanes v).cfg = s.cfg := rfl
@[simp] theorem State.setLanes_host (s : State) (v : Lanes) : (s.setLanes v).host = s.host := rfl
@[simp] theorem State.setLanes_answers (s : State) (v : Lanes) : (s.setLanes v).answers = s.answers := rfl
@[simp] theorem State.setLanes_resets (s : State) (v : Lanes) : (s.setLanes v).resets = s.resets := rfl
@[simp] theorem State.setLanes_disturbed (s : State) (v : Lanes) : (s.setLanes v).disturbed = s.disturbed := rfl
@[simp] theorem State.setLanes_draws (s : State) (v : Lanes) : (s.setLanes v).draws = s.draws := rfl
@[simp] theorem State.setLanes_era (s : State) (v : Lanes) : (s.setLanes v).era = s.era := rfl

/-! ### setMlen -/

@[simp] theorem State.setMlen_lanes (s : State) (v : Nat) : (s.setMlen v).lanes = s.lanes := rfl
@[simp] theorem State.setMlen_mlen (s : State) (v : Nat) : (s.setMlen v).mlen = v := rfl
@[simp] theorem State.setMlen_olen (s : State) (v : Nat) : (s.setMlen v).olen = s.olen := rfl
@[simp] theorem State.setMlen_ocnt (s : State) (v : Nat) : (s.setMlen v).ocnt = s.ocnt := rfl
@[simp] theorem State.setMlen_mode (s : State) (v : Nat) : (s.setMlen v).mode = s.mode := rfl
@[simp] theorem State.setMlen_blk (s : State) (v : Nat) : (s.setMlen v).blk = s.blk := rfl
@[simp] theorem State.setMlen_phase (s : State) (v : Nat) : (s.setMlen v).phase = s.phase := rfl
@[simp] theorem State.setMlen_rnd (s : State) (v : Nat) : (s.setMlen v).rnd = s.rnd := rfl
@[simp] theorem State.setMlen_errcode (s : State) (v : Nat) : (s.setMlen v).errcode = s.errcode := rfl
@[simp] theorem State.setMlen_msg (s : State) (v : Nat) : (s.setMlen v).msg = s.msg := rfl
@[simp] theorem State.setMlen_out (s : State) (v : Nat) : (s.setMlen v).out = s.out := rfl
@[simp] theorem State.setMlen_cfg (s : State) (v : Nat) : (s.setMlen v).cfg = s.cfg := rfl
@[simp] theorem State.setMlen_host (s : State) (v : Nat) : (s.setMlen v).host = s.host := rfl
@[simp] theorem State.setMlen_answers (s : State) (v : Nat) : (s.setMlen v).answers = s.answers := rfl
@[simp] theorem State.setMlen_resets (s : State) (v : Nat) : (s.setMlen v).resets = s.resets := rfl
@[simp] theorem State.setMlen_disturbed (s : State) (v : Nat) : (s.setMlen v).disturbed = s.disturbed := rfl
@[simp] theorem State.setMlen_draws (s : State) (v : Nat) : (s.setMlen v).draws = s.draws := rfl
@[simp] theorem State.setMlen_era (s : State) (v : Nat) : (s.setMlen v).era = s.era := rfl

/-! ### setOlen -/

@[simp] theorem State.setOlen_lanes (s : State) (v : Nat) : (s.setOlen v).lanes = s.lanes := rfl
@[simp] theorem State.setOlen_mlen (s : State) (v : Nat) : (s.setOlen v).mlen = s.mlen := rfl
@[simp] theorem State.setOlen_olen (s : State) (v : Nat) : (s.setOlen v).olen = v := rfl
@[simp] theorem State.setOlen_ocnt (s : State) (v : Nat) : (s.setOlen v).ocnt = s.ocnt := rfl
@[simp] theorem State.setOlen_mode (s : State) (v : Nat) : (s.setOlen v).mode = s.mode := rfl
@[simp] theorem State.setOlen_blk (s : State) (v : Nat) : (s.setOlen v).blk = s.blk := rfl
@[simp] theorem State.setOlen_phase (s : State) (v : Nat) : (s.setOlen v).phase = s.phase := rfl
@[simp] theorem State.setOlen_rnd (s : State) (v : Nat) : (s.setOlen v).rnd = s.rnd := rfl
@[simp] theorem State.setOlen_errcode (s : State) (v : Nat) : (s.setOlen v).errcode = s.errcode := rfl
@[simp] theorem State.setOlen_msg (s : State) (v : Nat) : (s.setOlen v).msg = s.msg := rfl
@[simp] theorem State.setOlen_out (s : State) (v : Nat) : (s.setOlen v).out = s.out := rfl
@[simp] theorem State.setOlen_cfg (s : State) (v : Nat) : (s.setOlen v).cfg = s.cfg := rfl
@[simp] theorem State.setOlen_host (s : State) (v : Nat) : (s.setOlen v).host = s.host := rfl
@[simp] theorem State.setOlen_answers (s : State) (v : Nat) : (s.setOlen v).answers = s.answers := rfl
@[simp] theorem State.setOlen_resets (s : State) (v : Nat) : (s.setOlen v).resets = s.resets := rfl
@[simp] theorem State.setOlen_disturbed (s : State) (v : Nat) : (s.setOlen v).disturbed = s.disturbed := rfl
@[simp] theorem State.setOlen_draws (s : State) (v : Nat) : (s.setOlen v).draws = s.draws := rfl
@[simp] theorem State.setOlen_era (s : State) (v : Nat) : (s.setOlen v).era = s.era := rfl

/-! ### setOcnt -/

@[simp] theorem State.setOcnt_lanes (s : State) (v : Nat) : (s.setOcnt v).lanes = s.lanes := rfl
@[simp] theorem State.setOcnt_mlen (s : State) (v : Nat) : (s.setOcnt v).mlen = s.mlen := rfl
@[simp] theorem State.setOcnt_olen (s : State) (v : Nat) : (s.setOcnt v).olen = s.olen := rfl
@[simp] theorem State.setOcnt_ocnt (s : State) (v : Nat) : (s.setOcnt v).ocnt = v := rfl
@[simp] theorem State.setOcnt_mode (s : State) (v : Nat) : (s.setOcnt v).mode = s.mode := rfl
@[simp] theorem State.setOcnt_blk (s : State) (v : Nat) : (s.setOcnt v).blk = s.blk := rfl
@[simp] theorem State.setOcnt_phase (s : State) (v : Nat) : (s.setOcnt v).phase = s.phase := rfl
@[simp] theorem State.setOcnt_rnd (s : State) (v : Nat) : (s.setOcnt v).rnd = s.rnd := rfl
@[simp] theorem State.setOcnt_errcode (s : State) (v : Nat) : (s.setOcnt v).errcode = s.errcode := rfl
@[simp] theorem State.setOcnt_msg (s : State) (v : Nat) : (s.setOcnt v).msg = s.msg := rfl
@[simp] theorem State.setOcnt_out (s : State) (v : Nat) : (s.setOcnt v).out = s.out := rfl
@[simp] theorem State.setOcnt_cfg (s : State) (v : Nat) : (s.setOcnt v).cfg = s.cfg := rfl
@[simp] theorem State.setOcnt_host (s : State) (v : Nat) : (s.setOcnt v).host = s.host := rfl
@[simp] theorem State.setOcnt_answers (s : State) (v : Nat) : (s.setOcnt v).answers = s.answers := rfl
@[simp] theorem State.setOcnt_resets (s : State) (v : Nat) : (s.setOcnt v).resets = s.resets := rfl
@[simp] theorem State.setOcnt_disturbed (s : State) (v : Nat) : (s.setOcnt v).disturbed = s.disturbed := rfl
@[simp] theorem State.setOcnt_draws (s : State) (v : Nat) : (s.setOcnt v).draws = s.draws := rfl
@[simp] theorem State.setOcnt_era (s : State) (v : Nat) : (s.setOcnt v).era = s.era := rfl

/-! ### setMode -/

@[simp] theorem State.setMode_lanes (s : State) (v : Mode) : (s.setMode v).lanes = s.lanes := rfl
@[simp] theorem State.setMode_mlen (s : State) (v : Mode) : (s.setMode v).mlen = s.mlen := rfl
@[simp] theorem State.setMode_olen (s : State) (v : Mode) : (s.setMode v).olen = s.olen := rfl
@[simp] theorem State.setMode_ocnt (s : State) (v : Mode) : (s.setMode v).ocnt = s.ocnt := rfl
@[simp] theorem State.setMode_mode (s : State) (v : Mode) : (s.setMode v).mode = v := rfl
@[simp] theorem State.setMode_blk (s : State) (v : Mode) : (s.setMode v).blk = s.blk := rfl
@[simp] theorem State.setMode_phase (s : State) (v : Mode) : (s.setMode v).phase = s.phase := rfl
@[simp] theorem State.setMode_rnd (s : State) (v : Mode) : (s.setMode v).rnd = s.rnd := rfl
@[simp] theorem State.setMode_errcode (s : State) (v : Mode) : (s.setMode v).errcode = s.errcode := rfl
@[simp] theorem State.setMode_msg (s : State) (v : Mode) : (s.setMode v).msg = s.msg := rfl
@[simp] theorem State.setMode_out (s : State) (v : Mode) : (s.setMode v).out = s.out := rfl
@[simp] theorem State.setMode_cfg (s : State) (v : Mode) : (s.setMode v).cfg = s.cfg := rfl
@[simp] theorem State.setMode_host (s : State) (v : Mode) : (s.setMode v).host = s.host := rfl
@[simp] theorem State.setMode_answers (s : State) (v : Mode) : (s.setMode v).answers = s.answers := rfl
@[simp] theorem State.setMode_resets (s : State) (v : Mode) : (s.setMode v).resets = s.resets := rfl
@[simp] theorem State.setMode_disturbed (s : State) (v : Mode) : (s.setMode v).disturbed = s.disturbed := rfl
@[simp] theorem State.setMode_draws (s : State) (v : Mode) : (s.setMode v).draws = s.draws := rfl
@[simp] theorem State.setMode_era (s : State) (v : Mode) : (s.setMode v).era = s.era := rfl

/-! ### setBlk -/

@[simp] theorem State.setBlk_lanes (s : State) (v : Nat) : (s.setBlk v).lanes = s.lanes := rfl
@[simp] theorem State.setBlk_mlen (s : State) (v : Nat) : (s.setBlk v).mlen = s.mlen := rfl
@[simp] theorem State.setBlk_olen (s : State) (v : Nat) : (s.setBlk v).olen = s.olen := rfl
@[simp] theorem State.setBlk_ocnt (s : State) (v : Nat) : (s.setBlk v).ocnt = s.ocnt := rfl
@[simp] theorem State.setBlk_mode (s : State) (v : Nat) : (s.setBlk v).mode = s.mode := rfl
@[simp] theorem State.setBlk_blk (s : State) (v : Nat) : (s.setBlk v).blk = v := rfl
@[simp] theorem State.setBlk_phase (s : State) (v : Nat) : (s.setBlk v).phase = s.phase := rfl
@[simp] theorem State.setBlk_rnd (s : State) (v : Nat) : (s.setBlk v).rnd = s.rnd := rfl
@[simp] theorem State.setBlk_errcode (s : State) (v : Nat) : (s.setBlk v).errcode = s.errcode := rfl
@[simp] theorem State.setBlk_msg (s : State) (v : Nat) : (s.setBlk v).msg = s.msg := rfl
@[simp] theorem State.setBlk_out (s : State) (v : Nat) : (s.setBlk v).out = s.out := rfl
@[simp] theorem State.setBlk_cfg (s : State) (v : Nat) : (s.setBlk v).cfg = s.cfg := rfl
@[simp] theorem State.setBlk_host (s : State) (v : Nat) : (s.setBlk v).host = s.host := rfl
@[simp] theorem State.setBlk_answers (s : State) (v : Nat) : (s.setBlk v).answers = s.answers := rfl
@[simp] theorem State.setBlk_resets (s : State) (v : Nat) : (s.setBlk v).resets = s.resets := rfl
@[simp] theorem State.setBlk_disturbed (s : State) (v : Nat) : (s.setBlk v).disturbed = s.disturbed := rfl
@[simp] theorem State.setBlk_draws (s : State) (v : Nat) : (s.setBlk v).draws = s.draws := rfl
@[simp] theorem State.setBlk_era (s : State) (v : Nat) : (s.setBlk v).era = s.era := rfl

/-! ### setPhase -/

@[simp] theorem State.setPhase_lanes (s : State) (v : Phase) : (s.setPhase v).lanes = s.lanes := rfl
@[simp] theorem State.setPhase_mlen (s : State) (v : Phase) : (s.setPhase v).mlen = s.mlen := rfl
@[simp] theorem State.setPhase_olen (s : State) (v : Phase) : (s.setPhase v).olen = s.olen := rfl
@[simp] theorem State.setPhase_ocnt (s : State) (v : Phase) : (s.setPhase v).ocnt = s.ocnt := rfl
@[simp] theorem State.setPhase_mode (s : State) (v : Phase) : (s.setPhase v).mode = s.mode := rfl
@[simp] theorem State.setPhase_blk (s : State) (v : Phase) : (s.setPhase v).blk = s.blk := rfl
@[simp] theorem State.setPhase_phase (s : State) (v : Phase) : (s.setPhase v).phase = v := rfl
@[simp] theorem State.setPhase_rnd (s : State) (v : Phase) : (s.setPhase v).rnd = s.rnd := rfl
@[simp] theorem State.setPhase_errcode (s : State) (v : Phase) : (s.setPhase v).errcode = s.errcode := rfl
@[simp] theorem State.setPhase_msg (s : State) (v : Phase) : (s.setPhase v).msg = s.msg := rfl
@[simp] theorem State.setPhase_out (s : State) (v : Phase) : (s.setPhase v).out = s.out := rfl
@[simp] theorem State.setPhase_cfg (s : State) (v : Phase) : (s.setPhase v).cfg = s.cfg := rfl
@[simp] theorem State.setPhase_host (s : State) (v : Phase) : (s.setPhase v).host = s.host := rfl
@[simp] theorem State.setPhase_answers (s : State) (v : Phase) : (s.setPhase v).answers = s.answers := rfl
@[simp] theorem State.setPhase_resets (s : State) (v : Phase) : (s.setPhase v).resets = s.resets := rfl
@[simp] theorem State.setPhase_disturbed (s : State) (v : Phase) : (s.setPhase v).disturbed = s.disturbed := rfl
@[simp] theorem State.setPhase_draws (s : State) (v : Phase) : (s.setPhase v).draws = s.draws := rfl
@[simp] theorem State.setPhase_era (s : State) (v : Phase) : (s.setPhase v).era = s.era := rfl

/-! ### setRnd -/

@[simp] theorem State.setRnd_lanes (s : State) (v : Fin 24) : (s.setRnd v).lanes = s.lanes := rfl
@[simp] theorem State.setRnd_mlen (s : State) (v : Fin 24) : (s.setRnd v).mlen = s.mlen := rfl
@[simp] theorem State.setRnd_olen (s : State) (v : Fin 24) : (s.setRnd v).olen = s.olen := rfl
@[simp] theorem State.setRnd_ocnt (s : State) (v : Fin 24) : (s.setRnd v).ocnt = s.ocnt := rfl
@[simp] theorem State.setRnd_mode (s : State) (v : Fin 24) : (s.setRnd v).mode = s.mode := rfl
@[simp] theorem State.setRnd_blk (s : State) (v : Fin 24) : (s.setRnd v).blk = s.blk := rfl
@[simp] theorem State.setRnd_phase (s : State) (v : Fin 24) : (s.setRnd v).phase = s.phase := rfl
@[simp] theorem State.setRnd_rnd (s : State) (v : Fin 24) : (s.setRnd v).rnd = v := rfl
@[simp] theorem State.setRnd_errcode (s : State) (v : Fin 24) : (s.setRnd v).errcode = s.errcode := rfl
@[simp] theorem State.setRnd_msg (s : State) (v : Fin 24) : (s.setRnd v).msg = s.msg := rfl
@[simp] theorem State.setRnd_out (s : State) (v : Fin 24) : (s.setRnd v).out = s.out := rfl
@[simp] theorem State.setRnd_cfg (s : State) (v : Fin 24) : (s.setRnd v).cfg = s.cfg := rfl
@[simp] theorem State.setRnd_host (s : State) (v : Fin 24) : (s.setRnd v).host = s.host := rfl
@[simp] theorem State.setRnd_answers (s : State) (v : Fin 24) : (s.setRnd v).answers = s.answers := rfl
@[simp] theorem State.setRnd_resets (s : State) (v : Fin 24) : (s.setRnd v).resets = s.resets := rfl
@[simp] theorem State.setRnd_disturbed (s : State) (v : Fin 24) : (s.setRnd v).disturbed = s.disturbed := rfl
@[simp] theorem State.setRnd_draws (s : State) (v : Fin 24) : (s.setRnd v).draws = s.draws := rfl
@[simp] theorem State.setRnd_era (s : State) (v : Fin 24) : (s.setRnd v).era = s.era := rfl

/-! ### setErrcode -/

@[simp] theorem State.setErrcode_lanes (s : State) (v : ErrCode) : (s.setErrcode v).lanes = s.lanes := rfl
@[simp] theorem State.setErrcode_mlen (s : State) (v : ErrCode) : (s.setErrcode v).mlen = s.mlen := rfl
@[simp] theorem State.setErrcode_olen (s : State) (v : ErrCode) : (s.setErrcode v).olen = s.olen := rfl
@[simp] theorem State.setErrcode_ocnt (s : State) (v : ErrCode) : (s.setErrcode v).ocnt = s.ocnt := rfl
@[simp] theorem State.setErrcode_mode (s : State) (v : ErrCode) : (s.setErrcode v).mode = s.mode := rfl
@[simp] theorem State.setErrcode_blk (s : State) (v : ErrCode) : (s.setErrcode v).blk = s.blk := rfl
@[simp] theorem State.setErrcode_phase (s : State) (v : ErrCode) : (s.setErrcode v).phase = s.phase := rfl
@[simp] theorem State.setErrcode_rnd (s : State) (v : ErrCode) : (s.setErrcode v).rnd = s.rnd := rfl
@[simp] theorem State.setErrcode_errcode (s : State) (v : ErrCode) : (s.setErrcode v).errcode = v := rfl
@[simp] theorem State.setErrcode_msg (s : State) (v : ErrCode) : (s.setErrcode v).msg = s.msg := rfl
@[simp] theorem State.setErrcode_out (s : State) (v : ErrCode) : (s.setErrcode v).out = s.out := rfl
@[simp] theorem State.setErrcode_cfg (s : State) (v : ErrCode) : (s.setErrcode v).cfg = s.cfg := rfl
@[simp] theorem State.setErrcode_host (s : State) (v : ErrCode) : (s.setErrcode v).host = s.host := rfl
@[simp] theorem State.setErrcode_answers (s : State) (v : ErrCode) : (s.setErrcode v).answers = s.answers := rfl
@[simp] theorem State.setErrcode_resets (s : State) (v : ErrCode) : (s.setErrcode v).resets = s.resets := rfl
@[simp] theorem State.setErrcode_disturbed (s : State) (v : ErrCode) : (s.setErrcode v).disturbed = s.disturbed := rfl
@[simp] theorem State.setErrcode_draws (s : State) (v : ErrCode) : (s.setErrcode v).draws = s.draws := rfl
@[simp] theorem State.setErrcode_era (s : State) (v : ErrCode) : (s.setErrcode v).era = s.era := rfl

/-! ### setMsg -/

@[simp] theorem State.setMsg_lanes (s : State) (v : Memory) : (s.setMsg v).lanes = s.lanes := rfl
@[simp] theorem State.setMsg_mlen (s : State) (v : Memory) : (s.setMsg v).mlen = s.mlen := rfl
@[simp] theorem State.setMsg_olen (s : State) (v : Memory) : (s.setMsg v).olen = s.olen := rfl
@[simp] theorem State.setMsg_ocnt (s : State) (v : Memory) : (s.setMsg v).ocnt = s.ocnt := rfl
@[simp] theorem State.setMsg_mode (s : State) (v : Memory) : (s.setMsg v).mode = s.mode := rfl
@[simp] theorem State.setMsg_blk (s : State) (v : Memory) : (s.setMsg v).blk = s.blk := rfl
@[simp] theorem State.setMsg_phase (s : State) (v : Memory) : (s.setMsg v).phase = s.phase := rfl
@[simp] theorem State.setMsg_rnd (s : State) (v : Memory) : (s.setMsg v).rnd = s.rnd := rfl
@[simp] theorem State.setMsg_errcode (s : State) (v : Memory) : (s.setMsg v).errcode = s.errcode := rfl
@[simp] theorem State.setMsg_msg (s : State) (v : Memory) : (s.setMsg v).msg = v := rfl
@[simp] theorem State.setMsg_out (s : State) (v : Memory) : (s.setMsg v).out = s.out := rfl
@[simp] theorem State.setMsg_cfg (s : State) (v : Memory) : (s.setMsg v).cfg = s.cfg := rfl
@[simp] theorem State.setMsg_host (s : State) (v : Memory) : (s.setMsg v).host = s.host := rfl
@[simp] theorem State.setMsg_answers (s : State) (v : Memory) : (s.setMsg v).answers = s.answers := rfl
@[simp] theorem State.setMsg_resets (s : State) (v : Memory) : (s.setMsg v).resets = s.resets := rfl
@[simp] theorem State.setMsg_disturbed (s : State) (v : Memory) : (s.setMsg v).disturbed = s.disturbed := rfl
@[simp] theorem State.setMsg_draws (s : State) (v : Memory) : (s.setMsg v).draws = s.draws := rfl
@[simp] theorem State.setMsg_era (s : State) (v : Memory) : (s.setMsg v).era = s.era := rfl

/-! ### setOut -/

@[simp] theorem State.setOut_lanes (s : State) (v : Memory) : (s.setOut v).lanes = s.lanes := rfl
@[simp] theorem State.setOut_mlen (s : State) (v : Memory) : (s.setOut v).mlen = s.mlen := rfl
@[simp] theorem State.setOut_olen (s : State) (v : Memory) : (s.setOut v).olen = s.olen := rfl
@[simp] theorem State.setOut_ocnt (s : State) (v : Memory) : (s.setOut v).ocnt = s.ocnt := rfl
@[simp] theorem State.setOut_mode (s : State) (v : Memory) : (s.setOut v).mode = s.mode := rfl
@[simp] theorem State.setOut_blk (s : State) (v : Memory) : (s.setOut v).blk = s.blk := rfl
@[simp] theorem State.setOut_phase (s : State) (v : Memory) : (s.setOut v).phase = s.phase := rfl
@[simp] theorem State.setOut_rnd (s : State) (v : Memory) : (s.setOut v).rnd = s.rnd := rfl
@[simp] theorem State.setOut_errcode (s : State) (v : Memory) : (s.setOut v).errcode = s.errcode := rfl
@[simp] theorem State.setOut_msg (s : State) (v : Memory) : (s.setOut v).msg = s.msg := rfl
@[simp] theorem State.setOut_out (s : State) (v : Memory) : (s.setOut v).out = v := rfl
@[simp] theorem State.setOut_cfg (s : State) (v : Memory) : (s.setOut v).cfg = s.cfg := rfl
@[simp] theorem State.setOut_host (s : State) (v : Memory) : (s.setOut v).host = s.host := rfl
@[simp] theorem State.setOut_answers (s : State) (v : Memory) : (s.setOut v).answers = s.answers := rfl
@[simp] theorem State.setOut_resets (s : State) (v : Memory) : (s.setOut v).resets = s.resets := rfl
@[simp] theorem State.setOut_disturbed (s : State) (v : Memory) : (s.setOut v).disturbed = s.disturbed := rfl
@[simp] theorem State.setOut_draws (s : State) (v : Memory) : (s.setOut v).draws = s.draws := rfl
@[simp] theorem State.setOut_era (s : State) (v : Memory) : (s.setOut v).era = s.era := rfl

/-! ### setHost -/

@[simp] theorem State.setHost_lanes (s : State) (v : List HostMove) : (s.setHost v).lanes = s.lanes := rfl
@[simp] theorem State.setHost_mlen (s : State) (v : List HostMove) : (s.setHost v).mlen = s.mlen := rfl
@[simp] theorem State.setHost_olen (s : State) (v : List HostMove) : (s.setHost v).olen = s.olen := rfl
@[simp] theorem State.setHost_ocnt (s : State) (v : List HostMove) : (s.setHost v).ocnt = s.ocnt := rfl
@[simp] theorem State.setHost_mode (s : State) (v : List HostMove) : (s.setHost v).mode = s.mode := rfl
@[simp] theorem State.setHost_blk (s : State) (v : List HostMove) : (s.setHost v).blk = s.blk := rfl
@[simp] theorem State.setHost_phase (s : State) (v : List HostMove) : (s.setHost v).phase = s.phase := rfl
@[simp] theorem State.setHost_rnd (s : State) (v : List HostMove) : (s.setHost v).rnd = s.rnd := rfl
@[simp] theorem State.setHost_errcode (s : State) (v : List HostMove) : (s.setHost v).errcode = s.errcode := rfl
@[simp] theorem State.setHost_msg (s : State) (v : List HostMove) : (s.setHost v).msg = s.msg := rfl
@[simp] theorem State.setHost_out (s : State) (v : List HostMove) : (s.setHost v).out = s.out := rfl
@[simp] theorem State.setHost_cfg (s : State) (v : List HostMove) : (s.setHost v).cfg = s.cfg := rfl
@[simp] theorem State.setHost_host (s : State) (v : List HostMove) : (s.setHost v).host = v := rfl
@[simp] theorem State.setHost_answers (s : State) (v : List HostMove) : (s.setHost v).answers = s.answers := rfl
@[simp] theorem State.setHost_resets (s : State) (v : List HostMove) : (s.setHost v).resets = s.resets := rfl
@[simp] theorem State.setHost_disturbed (s : State) (v : List HostMove) : (s.setHost v).disturbed = s.disturbed := rfl
@[simp] theorem State.setHost_draws (s : State) (v : List HostMove) : (s.setHost v).draws = s.draws := rfl
@[simp] theorem State.setHost_era (s : State) (v : List HostMove) : (s.setHost v).era = s.era := rfl

/-! ### setAnswers -/

@[simp] theorem State.setAnswers_lanes (s : State) (v : List Answer) : (s.setAnswers v).lanes = s.lanes := rfl
@[simp] theorem State.setAnswers_mlen (s : State) (v : List Answer) : (s.setAnswers v).mlen = s.mlen := rfl
@[simp] theorem State.setAnswers_olen (s : State) (v : List Answer) : (s.setAnswers v).olen = s.olen := rfl
@[simp] theorem State.setAnswers_ocnt (s : State) (v : List Answer) : (s.setAnswers v).ocnt = s.ocnt := rfl
@[simp] theorem State.setAnswers_mode (s : State) (v : List Answer) : (s.setAnswers v).mode = s.mode := rfl
@[simp] theorem State.setAnswers_blk (s : State) (v : List Answer) : (s.setAnswers v).blk = s.blk := rfl
@[simp] theorem State.setAnswers_phase (s : State) (v : List Answer) : (s.setAnswers v).phase = s.phase := rfl
@[simp] theorem State.setAnswers_rnd (s : State) (v : List Answer) : (s.setAnswers v).rnd = s.rnd := rfl
@[simp] theorem State.setAnswers_errcode (s : State) (v : List Answer) : (s.setAnswers v).errcode = s.errcode := rfl
@[simp] theorem State.setAnswers_msg (s : State) (v : List Answer) : (s.setAnswers v).msg = s.msg := rfl
@[simp] theorem State.setAnswers_out (s : State) (v : List Answer) : (s.setAnswers v).out = s.out := rfl
@[simp] theorem State.setAnswers_cfg (s : State) (v : List Answer) : (s.setAnswers v).cfg = s.cfg := rfl
@[simp] theorem State.setAnswers_host (s : State) (v : List Answer) : (s.setAnswers v).host = s.host := rfl
@[simp] theorem State.setAnswers_answers (s : State) (v : List Answer) : (s.setAnswers v).answers = v := rfl
@[simp] theorem State.setAnswers_resets (s : State) (v : List Answer) : (s.setAnswers v).resets = s.resets := rfl
@[simp] theorem State.setAnswers_disturbed (s : State) (v : List Answer) : (s.setAnswers v).disturbed = s.disturbed := rfl
@[simp] theorem State.setAnswers_draws (s : State) (v : List Answer) : (s.setAnswers v).draws = s.draws := rfl
@[simp] theorem State.setAnswers_era (s : State) (v : List Answer) : (s.setAnswers v).era = s.era := rfl

/-! ### setResets -/

@[simp] theorem State.setResets_lanes (s : State) (v : Nat) : (s.setResets v).lanes = s.lanes := rfl
@[simp] theorem State.setResets_mlen (s : State) (v : Nat) : (s.setResets v).mlen = s.mlen := rfl
@[simp] theorem State.setResets_olen (s : State) (v : Nat) : (s.setResets v).olen = s.olen := rfl
@[simp] theorem State.setResets_ocnt (s : State) (v : Nat) : (s.setResets v).ocnt = s.ocnt := rfl
@[simp] theorem State.setResets_mode (s : State) (v : Nat) : (s.setResets v).mode = s.mode := rfl
@[simp] theorem State.setResets_blk (s : State) (v : Nat) : (s.setResets v).blk = s.blk := rfl
@[simp] theorem State.setResets_phase (s : State) (v : Nat) : (s.setResets v).phase = s.phase := rfl
@[simp] theorem State.setResets_rnd (s : State) (v : Nat) : (s.setResets v).rnd = s.rnd := rfl
@[simp] theorem State.setResets_errcode (s : State) (v : Nat) : (s.setResets v).errcode = s.errcode := rfl
@[simp] theorem State.setResets_msg (s : State) (v : Nat) : (s.setResets v).msg = s.msg := rfl
@[simp] theorem State.setResets_out (s : State) (v : Nat) : (s.setResets v).out = s.out := rfl
@[simp] theorem State.setResets_cfg (s : State) (v : Nat) : (s.setResets v).cfg = s.cfg := rfl
@[simp] theorem State.setResets_host (s : State) (v : Nat) : (s.setResets v).host = s.host := rfl
@[simp] theorem State.setResets_answers (s : State) (v : Nat) : (s.setResets v).answers = s.answers := rfl
@[simp] theorem State.setResets_resets (s : State) (v : Nat) : (s.setResets v).resets = v := rfl
@[simp] theorem State.setResets_disturbed (s : State) (v : Nat) : (s.setResets v).disturbed = s.disturbed := rfl
@[simp] theorem State.setResets_draws (s : State) (v : Nat) : (s.setResets v).draws = s.draws := rfl
@[simp] theorem State.setResets_era (s : State) (v : Nat) : (s.setResets v).era = s.era := rfl

/-! ### setDisturbed -/

@[simp] theorem State.setDisturbed_lanes (s : State) (v : Bool) : (s.setDisturbed v).lanes = s.lanes := rfl
@[simp] theorem State.setDisturbed_mlen (s : State) (v : Bool) : (s.setDisturbed v).mlen = s.mlen := rfl
@[simp] theorem State.setDisturbed_olen (s : State) (v : Bool) : (s.setDisturbed v).olen = s.olen := rfl
@[simp] theorem State.setDisturbed_ocnt (s : State) (v : Bool) : (s.setDisturbed v).ocnt = s.ocnt := rfl
@[simp] theorem State.setDisturbed_mode (s : State) (v : Bool) : (s.setDisturbed v).mode = s.mode := rfl
@[simp] theorem State.setDisturbed_blk (s : State) (v : Bool) : (s.setDisturbed v).blk = s.blk := rfl
@[simp] theorem State.setDisturbed_phase (s : State) (v : Bool) : (s.setDisturbed v).phase = s.phase := rfl
@[simp] theorem State.setDisturbed_rnd (s : State) (v : Bool) : (s.setDisturbed v).rnd = s.rnd := rfl
@[simp] theorem State.setDisturbed_errcode (s : State) (v : Bool) : (s.setDisturbed v).errcode = s.errcode := rfl
@[simp] theorem State.setDisturbed_msg (s : State) (v : Bool) : (s.setDisturbed v).msg = s.msg := rfl
@[simp] theorem State.setDisturbed_out (s : State) (v : Bool) : (s.setDisturbed v).out = s.out := rfl
@[simp] theorem State.setDisturbed_cfg (s : State) (v : Bool) : (s.setDisturbed v).cfg = s.cfg := rfl
@[simp] theorem State.setDisturbed_host (s : State) (v : Bool) : (s.setDisturbed v).host = s.host := rfl
@[simp] theorem State.setDisturbed_answers (s : State) (v : Bool) : (s.setDisturbed v).answers = s.answers := rfl
@[simp] theorem State.setDisturbed_resets (s : State) (v : Bool) : (s.setDisturbed v).resets = s.resets := rfl
@[simp] theorem State.setDisturbed_disturbed (s : State) (v : Bool) : (s.setDisturbed v).disturbed = v := rfl
@[simp] theorem State.setDisturbed_draws (s : State) (v : Bool) : (s.setDisturbed v).draws = s.draws := rfl
@[simp] theorem State.setDisturbed_era (s : State) (v : Bool) : (s.setDisturbed v).era = s.era := rfl

/-! ### setDraws -/

@[simp] theorem State.setDraws_lanes (s : State) (v : Nat) : (s.setDraws v).lanes = s.lanes := rfl
@[simp] theorem State.setDraws_mlen (s : State) (v : Nat) : (s.setDraws v).mlen = s.mlen := rfl
@[simp] theorem State.setDraws_olen (s : State) (v : Nat) : (s.setDraws v).olen = s.olen := rfl
@[simp] theorem State.setDraws_ocnt (s : State) (v : Nat) : (s.setDraws v).ocnt = s.ocnt := rfl
@[simp] theorem State.setDraws_mode (s : State) (v : Nat) : (s.setDraws v).mode = s.mode := rfl
@[simp] theorem State.setDraws_blk (s : State) (v : Nat) : (s.setDraws v).blk = s.blk := rfl
@[simp] theorem State.setDraws_phase (s : State) (v : Nat) : (s.setDraws v).phase = s.phase := rfl
@[simp] theorem State.setDraws_rnd (s : State) (v : Nat) : (s.setDraws v).rnd = s.rnd := rfl
@[simp] theorem State.setDraws_errcode (s : State) (v : Nat) : (s.setDraws v).errcode = s.errcode := rfl
@[simp] theorem State.setDraws_msg (s : State) (v : Nat) : (s.setDraws v).msg = s.msg := rfl
@[simp] theorem State.setDraws_out (s : State) (v : Nat) : (s.setDraws v).out = s.out := rfl
@[simp] theorem State.setDraws_cfg (s : State) (v : Nat) : (s.setDraws v).cfg = s.cfg := rfl
@[simp] theorem State.setDraws_host (s : State) (v : Nat) : (s.setDraws v).host = s.host := rfl
@[simp] theorem State.setDraws_answers (s : State) (v : Nat) : (s.setDraws v).answers = s.answers := rfl
@[simp] theorem State.setDraws_resets (s : State) (v : Nat) : (s.setDraws v).resets = s.resets := rfl
@[simp] theorem State.setDraws_disturbed (s : State) (v : Nat) : (s.setDraws v).disturbed = s.disturbed := rfl
@[simp] theorem State.setDraws_draws (s : State) (v : Nat) : (s.setDraws v).draws = v := rfl
@[simp] theorem State.setDraws_era (s : State) (v : Nat) : (s.setDraws v).era = s.era := rfl

end Sys2Proof.Machine
end

