-- ==== Sys2Proof/Laws/Permutation.lean ====
section
/-! SUPPORT. What each sub-step does to each lane, and the permutation of the state as the function `keccakF`. -/

namespace Sys2Proof.Machine

@[simp] theorem theta_lane (A : Lanes) (x y : Fin 5) : (theta A).lane x y = A.lane x y ^^^ thetaD A x := by
  simp [theta]

@[simp] theorem rho_lane (A : Lanes) (x y : Fin 5) : (rho A).lane x y = rotl64 (A.lane x y) (rhoOffset x y) := by
  simp [rho]

@[simp] theorem pi_lane (A : Lanes) (x y : Fin 5) : (pi A).lane x y = A.lane (x + 3 * y) x := by
  simp [pi]

@[simp] theorem chi_lane (A : Lanes) (x y : Fin 5) :
    (chi A).lane x y = A.lane x y ^^^ (~~~(A.lane (x + 1) y) &&& A.lane (x + 2) y) := by
  simp [chi]

@[simp] theorem iota_lane_origin (ir : Fin 24) (A : Lanes) :
    (iota ir A).lane 0 0 = A.lane 0 0 ^^^ roundConstant ir := by
  simp [iota]

theorem iota_lane_other (ir : Fin 24) (A : Lanes) {x y : Fin 5} (h : ¬(x = 0 ∧ y = 0)) :
    (iota ir A).lane x y = A.lane x y := by
  simp only [iota, Lanes.lane_ofFn, h, if_false]

/-- The lanes after `n` rounds from round `r` on. -/
def roundsFrom (n : Nat) (r : Fin 24) (A : Lanes) : Lanes :=
  match n with
  | 0 => A
  | k + 1 => roundsFrom k (r + 1) (keccakRound r A)

/-- `n` rounds change the lanes and RND, and nothing else. -/
theorem rounds_eq (n : Nat) (s : State) :
    ∃ r, rounds n s = (s.setLanes (roundsFrom n s.rnd s.lanes)).setRnd r := by
  induction n generalizing s with
  | zero => exact ⟨s.rnd, rfl⟩
  | succ k ih =>
    obtain ⟨r, hr⟩ := ih (nextRound s)
    exact ⟨r, by rw [rounds, hr]; rfl⟩

theorem roundsFrom_all (A : Lanes) : roundsFrom 24 0 A = keccakF A := by
  have h : List.finRange 24 = [0, 1, 2, 3, 4, 5, 6, 7, 8, 9, 10, 11, 12, 13, 14, 15, 16, 17, 18, 19, 20, 21, 22, 23] := by
    decide
  simp only [keccakF, h, List.foldl_cons, List.foldl_nil, roundsFrom]
  rfl

/-- All the permutation of the state does (42_round_permute.md R165, 10_state.md R32): the lanes become `keccakF` of
them, RND a free value, and one draw is used. -/
theorem permute_eq (s : State) :
    permute s =
      ((s.setLanes (keccakF s.lanes)).setRnd (Config.freeRnd s.draws)).setDraws (s.draws + 1) := by
  obtain ⟨r, hr⟩ := rounds_eq 24 (s.setRnd 0)
  rw [permute, hr, ← roundsFrom_all]
  rfl

end Sys2Proof.Machine
end

