-- ==== Sys2Proof/Laws/Exec.lean ====
section
/-! SUPPORT. Acceptance, the error entry and the HASH start, said once. -/

namespace Sys2Proof.Machine

theorem accept_ready {s : State} (effect : State → State) (h : ready s) : accept effect s = .next (effect s) := by
  rcases h with h | h <;> simp [accept, h]

theorem accept_not_ready {s : State} (effect : State → State) (h : ¬ready s) : accept effect s = .next s := by
  unfold accept
  cases hp : s.phase <;> simp_all [ready]

/-- All that an accepted, ignored or held command can do. -/
theorem accept_cases {effect : State → State} {s t : State} (h : accept effect s = .next t) :
    (ready s ∧ t = effect s) ∨ (¬ready s ∧ t = s) := by
  by_cases hr : ready s
  · exact .inl ⟨hr, by simpa [accept_ready effect hr] using h.symm⟩
  · exact .inr ⟨hr, by simpa [accept_not_ready effect hr] using h.symm⟩

theorem accept_never_stops (effect : State → State) (s : State) : ∃ t, accept effect s = .next t := by
  by_cases hr : ready s
  · exact ⟨_, accept_ready effect hr⟩
  · exact ⟨_, accept_not_ready effect hr⟩

theorem roundOf_legal {ir : BitVec 5} (h : ir.toNat < 24) : roundOf ir = some ⟨ir.toNat, h⟩ := by
  simp [roundOf, h]

theorem withRound_legal {ir : BitVec 5} (f : Fin 24 → Lanes → Lanes) (s : State) (h : ir.toNat < 24) :
    withRound ir f s = accept (onLanes (f ⟨ir.toNat, h⟩)) s := by
  simp [withRound, roundOf_legal h]

theorem withRound_reserved {ir : BitVec 5} (f : Fin 24 → Lanes → Lanes) (s : State) (h : ¬ir.toNat < 24) :
    withRound ir f s = execReserved s := by
  simp [withRound, roundOf, h]

/-- All that a HASH start can do (43_sponge_controller.md R201). -/
theorem startHash_cases (m : Mode) (s : State) :
    (contractBroken m s.olen = true ∧ startHash m s = raiseError .contractViolation (s.setOcnt 0)) ∨
    (contractBroken m s.olen = false ∧ resourceShort s = true ∧
      startHash m s = raiseError .resourceExhaustion (s.setOcnt 0)) ∨
    (contractBroken m s.olen = false ∧ resourceShort s = false ∧ startHash m s = beginAbsorb m (s.setOcnt 0)) := by
  unfold startHash
  cases contractBroken m s.olen <;> cases resourceShort s <;> simp

/-- Every command answers a next state: no command stops the machine. -/
theorem exec_next (i : Instr) (s : State) : ∃ t, exec i s = .next t := by
  cases i <;>
    simp only [exec, execNop, execClr, execInit, execTheta, execRho, execPi, execChi, execKeccakf, execIota, execRound,
      execHashSha3_224, execHashSha3_256, execHashSha3_384, execHashSha3_512, execHashShake128, execHashShake256,
      withRound, execReserved]
  case nop => exact ⟨s, rfl⟩
  case clr => unfold acceptClear; split <;> exact ⟨_, rfl⟩
  case iota ir => split <;> exact accept_never_stops _ _
  case round ir => split <;> exact accept_never_stops _ _
  all_goals exact accept_never_stops _ _

end Sys2Proof.Machine
end

