-- ==== Sys2Proof/Laws/Memory.lean ====
section
/-! SUPPORT. The buffers: a read after a write, and that every write keeps the canonical form. -/

namespace Sys2Proof.Machine

@[simp] theorem memRead_memWrite_self (m : Memory) (a : Nat) (v : Byte) : memRead (memWrite m a v) a = some v := by
  induction m with
  | nil => simp [memWrite, memRead]
  | cons c rest ih =>
    obtain ⟨b, w⟩ := c
    simp only [memWrite]
    split
    · simp [memRead]
    · split
      · simp [memRead]
      · have hne : ¬b = a := by omega
        simp [memRead, hne, ih]

theorem memRead_memWrite_of_ne (m : Memory) {a b : Nat} (v : Byte) (h : b ≠ a) :
    memRead (memWrite m a v) b = memRead m b := by
  induction m with
  | nil => simp [memWrite, memRead, Ne.symm h]
  | cons c rest ih =>
    obtain ⟨k, w⟩ := c
    simp only [memWrite]
    split
    · simp [memRead, Ne.symm h]
    · split
      · rename_i hak
        subst hak
        simp [memRead, Ne.symm h]
      · simp [memRead, ih]

theorem memRead_memWrite (m : Memory) (a b : Nat) (v : Byte) :
    memRead (memWrite m a v) b = if b = a then some v else memRead m b := by
  split
  · subst b; simp
  · rename_i h; exact memRead_memWrite_of_ne m v h

/-- What a run of writes leaves: the byte written where one was, the old one elsewhere. -/
theorem memRead_memWriteAll (bytes : List Byte) (m : Memory) (a b : Nat) :
    memRead (memWriteAll m a bytes) b =
      if a ≤ b ∧ b < a + bytes.length then bytes[b - a]? else memRead m b := by
  induction bytes generalizing m a with
  | nil =>
    have : ¬(a ≤ b ∧ b < a + ([] : List Byte).length) := by simp only [List.length_nil]; omega
    rw [if_neg this, memWriteAll]
  | cons v rest ih =>
    rw [memWriteAll, ih, memRead_memWrite]
    simp only [List.length_cons]
    by_cases h0 : b = a
    · subst h0
      have h1 : ¬(b + 1 ≤ b ∧ b < b + 1 + rest.length) := by omega
      have h2 : b ≤ b ∧ b < b + (rest.length + 1) := by omega
      rw [if_neg h1, if_pos rfl, if_pos h2, Nat.sub_self, List.getElem?_cons_zero]
    · by_cases h1 : a + 1 ≤ b ∧ b < a + 1 + rest.length
      · have h2 : a ≤ b ∧ b < a + (rest.length + 1) := by omega
        have h3 : b - a = (b - (a + 1)) + 1 := by omega
        rw [if_pos h1, if_pos h2, h3, List.getElem?_cons_succ]
      · have h2 : ¬(a ≤ b ∧ b < a + (rest.length + 1)) := by omega
        rw [if_neg h1, if_neg h0, if_neg h2]

/-- A cell of memory after a write is the one written or was there before. -/
theorem mem_memWrite {m : Memory} {a : Nat} {v : Byte} {c : Host.Cell} (h : c ∈ memWrite m a v) :
    c = (a, v) ∨ c ∈ m := by
  induction m with
  | nil => simpa [memWrite] using h
  | cons d rest ih =>
    obtain ⟨k, w⟩ := d
    simp only [memWrite] at h
    split at h
    · simpa using h
    · split at h
      · rcases List.mem_cons.mp h with h | h
        · exact .inl h
        · exact .inr (List.mem_cons_of_mem _ h)
      · rcases List.mem_cons.mp h with h | h
        · exact .inr (h ▸ List.mem_cons_self)
        · exact (ih h).imp id (List.mem_cons_of_mem _)

/-- The addresses listed after a run of writes: those listed before and those written. -/
theorem mem_memWriteAll {bytes : List Byte} {m : Memory} {a : Nat} {c : Host.Cell}
    (h : c ∈ memWriteAll m a bytes) : (a ≤ c.1 ∧ c.1 < a + bytes.length) ∨ c ∈ m := by
  induction bytes generalizing m a with
  | nil => exact .inr h
  | cons v rest ih =>
    rcases ih h with h | h
    · exact .inl ⟨by omega, by simp only [List.length_cons]; omega⟩
    · rcases mem_memWrite h with h | h
      · subst h; exact .inl ⟨Nat.le_refl _, by simp⟩
      · exact .inr h

/-- A write keeps the addresses strictly rising. -/
theorem memWrite_wf {m : Memory} (a : Nat) (v : Byte) (h : Memory.wf m) : Memory.wf (memWrite m a v) := by
  induction m with
  | nil => simp [memWrite]
  | cons d rest ih =>
    obtain ⟨k, w⟩ := d
    obtain ⟨hk, hr⟩ := List.pairwise_cons.mp h
    simp only [memWrite]
    split
    · rename_i hak
      refine List.pairwise_cons.mpr ⟨fun c hc => ?_, h⟩
      rcases List.mem_cons.mp hc with hc | hc
      · subst hc; exact hak
      · exact Nat.lt_trans hak (hk c hc)
    · split
      · rename_i hak
        subst hak
        exact List.pairwise_cons.mpr ⟨hk, hr⟩
      · refine List.pairwise_cons.mpr ⟨fun c hc => ?_, ih hr⟩
        rcases mem_memWrite hc with hc | hc
        · subst hc; simp only; omega
        · exact hk c hc

/-- A run of writes keeps the canonical form. -/
theorem memWriteAll_wf (bytes : List Byte) {m : Memory} (a : Nat) (h : Memory.wf m) :
    Memory.wf (memWriteAll m a bytes) := by
  induction bytes generalizing m a with
  | nil => exact h
  | cons v rest ih => exact ih (a + 1) (memWrite_wf a v h)

/-- The buffers at reset are in the canonical form. -/
theorem reset_buffers_wf : Memory.wf State.reset.msg ∧ Memory.wf State.reset.out := ⟨List.Pairwise.nil, List.Pairwise.nil⟩

/-- In the canonical form, memories that read alike are equal. -/
theorem Memory.ext_read {m n : Memory} (hm : Memory.wf m) (hn : Memory.wf n)
    (h : ∀ a, memRead m a = memRead n a) : m = n := by
  have low : ∀ {l : Memory} {a : Nat}, (∀ c ∈ l, a < c.1) → memRead l a = none := by
    intro l a hl
    induction l with
    | nil => rfl
    | cons d rest ih =>
      have hd : ¬d.1 = a := fun e => absurd (hl d List.mem_cons_self) (by omega)
      simp [memRead, hd, ih fun c hc => hl c (List.mem_cons_of_mem _ hc)]
  induction m generalizing n with
  | nil =>
    cases n with
    | nil => rfl
    | cons d rest => simpa [memRead] using h d.1
  | cons c m ih =>
    obtain ⟨hc, hm⟩ := List.pairwise_cons.mp hm
    cases n with
    | nil => simpa [memRead] using h c.1
    | cons d n =>
      obtain ⟨hd, hn⟩ := List.pairwise_cons.mp hn
      have hkey : c.1 = d.1 := by
        rcases Nat.lt_trichotomy c.1 d.1 with hlt | heq | hgt
        · have := h c.1
          rw [low (l := d :: n) fun e he => by
            rcases List.mem_cons.mp he with he | he
            · exact he ▸ hlt
            · exact Nat.lt_trans hlt (hd e he)] at this
          simp [memRead] at this
        · exact heq
        · have := h d.1
          rw [low (l := c :: m) fun e he => by
            rcases List.mem_cons.mp he with he | he
            · exact he ▸ hgt
            · exact Nat.lt_trans hgt (hc e he)] at this
          simp [memRead] at this
      have hval : c.2 = d.2 := by have := h c.1; simpa [memRead, hkey] using this
      have htail : m = n := ih hm hn fun a => by
        by_cases ha : c.1 = a
        · subst ha
          rw [low hc, low (hkey ▸ hd)]
        · have := h a
          simpa [memRead, ha, hkey ▸ ha] using this
      rw [htail, Prod.ext hkey hval]

end Sys2Proof.Machine
end

