-- ==== Sys2Proof/Laws/PerInstr.lean ====
section
/-! SUPPORT. Per command: its word has the bits that its row of the opcode table fixes (30_encoding.md R81 to R83, R86). -/

namespace Sys2Proof.Laws.TableRow

/-- The bits the row of a command fixes: all eight of a format N or M word, `c[7:5]` of a format R word. -/
def fixedBits (i : Instr) : Byte :=
  match i with
  | .nop => 0xFF#8
  | .clr => 0xFF#8
  | .init => 0xFF#8
  | .theta => 0xFF#8
  | .rho => 0xFF#8
  | .pi => 0xFF#8
  | .chi => 0xFF#8
  | .keccakf => 0xFF#8
  | .iota _ => 0xE0#8
  | .round _ => 0xE0#8
  | .hashSha3_224 => 0xFF#8
  | .hashSha3_256 => 0xFF#8
  | .hashSha3_384 => 0xFF#8
  | .hashSha3_512 => 0xFF#8
  | .hashShake128 => 0xFF#8
  | .hashShake256 => 0xFF#8

/-- The value the row gives those bits. -/
def fixedValue (i : Instr) : Byte :=
  match i with
  | .nop => 0x00#8
  | .clr => 0x01#8
  | .init => 0x02#8
  | .theta => 0x10#8
  | .rho => 0x11#8
  | .pi => 0x12#8
  | .chi => 0x13#8
  | .keccakf => 0x18#8
  | .iota _ => 0x20#8
  | .round _ => 0x40#8
  | .hashSha3_224 => 0x80#8
  | .hashSha3_256 => 0x81#8
  | .hashSha3_384 => 0x82#8
  | .hashSha3_512 => 0x83#8
  | .hashShake128 => 0x84#8
  | .hashShake256 => 0x85#8

/-- The word of the command carries its row's fixed bits. -/
def Statement (i : Instr) : Prop := encode i &&& fixedBits i = fixedValue i

theorem nop : Statement .nop := by unfold Statement; decide
theorem clr : Statement .clr := by unfold Statement; decide
theorem init : Statement .init := by unfold Statement; decide
theorem theta : Statement .theta := by unfold Statement; decide
theorem rho : Statement .rho := by unfold Statement; decide
theorem pi : Statement .pi := by unfold Statement; decide
theorem chi : Statement .chi := by unfold Statement; decide
theorem keccakf : Statement .keccakf := by unfold Statement; decide
theorem iota (ir : BitVec 5) : Statement (.iota ir) := by revert ir; unfold Statement; decide
theorem round (ir : BitVec 5) : Statement (.round ir) := by revert ir; unfold Statement; decide
theorem hashSha3_224 : Statement .hashSha3_224 := by unfold Statement; decide
theorem hashSha3_256 : Statement .hashSha3_256 := by unfold Statement; decide
theorem hashSha3_384 : Statement .hashSha3_384 := by unfold Statement; decide
theorem hashSha3_512 : Statement .hashSha3_512 := by unfold Statement; decide
theorem hashShake128 : Statement .hashShake128 := by unfold Statement; decide
theorem hashShake256 : Statement .hashShake256 := by unfold Statement; decide

end Sys2Proof.Laws.TableRow
end

