-- ==== Sys2Proof/Laws/Sponge.lean ====
section
/-! SUPPORT. The sponge's pieces: rates, padding, the XOR of a block, and what an absorb and a squeeze step do. -/

namespace Sys2Proof.Machine

theorem rate_pos (m : Mode) : 0 < rate m := by cases m <;> decide

theorem rate_lt (m : Mode) : rate m < 200 := by cases m <;> decide

/-- `1 <= q <= r` (43_sponge_controller.md R184). -/
theorem padLength_bounds (m : Mode) (n : Nat) : 1 ≤ padLength m n ∧ padLength m n ≤ rate m := by
  have := Nat.mod_lt n (rate_pos m)
  unfold padLength
  omega

/-- The XOR of a block reaches the first `r` bytes of the state and no other (R182, R203). -/
theorem stateByte_xorBlock (A : Lanes) (r : Nat) (block : Nat → Byte) {i : Nat} (hi : i < 200) :
    stateByte (xorBlock A r block) i = if i < r then stateByte A i ^^^ block i else stateByte A i := by
  rw [xorBlock, stateByte_lanesOfBytes _ hi]

/-- Only the block's first `r` bytes count. -/
theorem xorBlock_congr {A : Lanes} {r : Nat} {b c : Nat → Byte} (h : ∀ i, i < r → b i = c i) :
    xorBlock A r b = xorBlock A r c := by
  refine Lanes.ext_byte fun i hi => ?_
  rw [stateByte_xorBlock _ _ _ hi, stateByte_xorBlock _ _ _ hi]
  split
  · rw [h i ‹_›]
  · rfl

@[simp] theorem length_takeBytes (A : Lanes) (n : Nat) : (takeBytes A n).length = n := by simp [takeBytes]

@[simp] theorem length_freeBytes (d a n : Nat) : (freeBytes d a n).length = n := by simp [freeBytes]

@[simp] theorem length_emitted (s : State) : (emitted s).length = takeCount s := by
  unfold emitted; split <;> simp

/-- The XOR of the next block and the permutation: lanes, RND and one draw, nothing else (R203). -/
theorem absorbBlock_eq (s : State) :
    absorbBlock s =
      ((s.setLanes (keccakF (xorBlock s.lanes (rate s.mode) (blockByte s)))).setRnd (Config.freeRnd s.draws)).setDraws
        (s.draws + 1) := by
  rw [absorbBlock, permute_eq]; rfl

/-- An absorb step that is not the last: BLK counts, ABSORB stays (R203). -/
theorem absorbStep_more {s : State} (h : s.blk + 1 ≠ blockCount s.mode s.mlen) :
    absorbStep s =
      (((s.setLanes (keccakF (xorBlock s.lanes (rate s.mode) (blockByte s)))).setRnd (Config.freeRnd s.draws)).setDraws
        (s.draws + 1)).setBlk (s.blk + 1) := by
  rw [absorbStep, if_neg h, absorbBlock_eq]

/-- The last absorb step: SQUEEZE, with BLK a free value (R203, 10_state.md R29). -/
theorem absorbStep_last {s : State} (h : s.blk + 1 = blockCount s.mode s.mlen) :
    absorbStep s =
      ((((s.setLanes (keccakF (xorBlock s.lanes (rate s.mode) (blockByte s)))).setRnd (Config.freeRnd s.draws)).setBlk
        (Config.freeBlk (s.draws + 1))).setDraws (s.draws + 2)).setPhase .squeeze := by
  rw [absorbStep, if_pos h, absorbBlock_eq]; rfl

/-- A squeeze step after which bytes are still owed: the block, the count, a permutation (R205). -/
theorem squeezeStep_more {s : State} (h : s.ocnt + takeCount s ≠ s.olen) :
    squeezeStep s =
      (((emitBlock s).setLanes (keccakF s.lanes)).setRnd (Config.freeRnd s.draws)).setDraws (s.draws + 1) := by
  rw [squeezeStep, if_neg h, permute_eq]; rfl

/-- The last squeeze step: the block, the count, DONE, lanes and MODE free values (R205, 10_state.md R24, R28). -/
theorem squeezeStep_last {s : State} (h : s.ocnt + takeCount s = s.olen) :
    squeezeStep s =
      ((((emitBlock s).setLanes (freeLanes s.draws)).setMode (Config.freeMode s.draws)).setDraws (s.draws + 1)).setPhase
        .done := by
  rw [squeezeStep, if_pos h]; rfl

/-- OUT after a block is emitted: the emitted bytes from OCNT on, the old ones elsewhere (R205). -/
theorem memRead_emitBlock (s : State) (a : Nat) :
    memRead (emitBlock s).out a =
      if s.ocnt ≤ a ∧ a < s.ocnt + takeCount s then (emitted s)[a - s.ocnt]? else memRead s.out a := by
  simp [emitBlock, memRead_memWriteAll]

/-- The fields no step of the controller writes. -/
theorem controllerStep_frame (s : State) :
    (controllerStep s).mlen = s.mlen ∧ (controllerStep s).olen = s.olen ∧ (controllerStep s).msg = s.msg ∧
      (controllerStep s).errcode = s.errcode ∧ (controllerStep s).cfg = s.cfg ∧ (controllerStep s).host = s.host ∧
      (controllerStep s).answers = s.answers ∧ (controllerStep s).resets = s.resets ∧
      (controllerStep s).disturbed = s.disturbed ∧ (controllerStep s).era = s.era := by
  unfold controllerStep
  split
  · by_cases h : s.blk + 1 = blockCount s.mode s.mlen
    · simp [absorbStep_last h]
    · simp [absorbStep_more h]
  · by_cases h : s.ocnt + takeCount s = s.olen
    · simp [squeezeStep_last h, emitBlock]
    · simp [squeezeStep_more h, emitBlock]
  all_goals simp

end Sys2Proof.Machine
end

