-- ==== Sys2Proof/Laws/Step.lean ====
section
/-! SUPPORT. What a step can do, said once. -/

namespace Sys2Proof.Machine

/-- With no reset to come, a step is a step in which none lands. -/
theorem step_no_reset {s : State} (h : s.resets = 0) : step s = coreStep s := by
  simp [step, machineStep, h]

/-- With no reset to come and the host's next move a command write, a quiescent machine issues that command. -/
theorem step_command {s : State} {c : Byte} {rest : List HostMove} (hr : s.resets = 0) (hb : busy s = false)
    (hh : s.host = .write 0x00 c.toNat :: rest) : step s = issueCommand c (s.setHost rest) := by
  have hc : c.toNat < 2 ^ 8 := c.isLt
  simp [step_no_reset hr, coreStep, hb, quietStep, hh, performMove, writeRegister, regOfNumber]
  intro h; omega

/-- While BUSY with every pending access held, or none, a step is the controller's (70_reset_and_hazards.md R290). -/
theorem step_held {s : State} (hr : s.resets = 0) (hb : busy s = true)
    (hh : ∀ m rest, s.host = m :: rest → neverHeld m s = false) : step s = .next (controllerStep s) := by
  simp only [step_no_reset hr, coreStep, hb, if_true, busyStep]
  cases hm : s.host with
  | nil => rfl
  | cons m rest => simp [hh m rest hm]

/-- While BUSY with a move next that is not held, a step performs it or is the controller's, by the free choice. -/
theorem step_unheld {s : State} {m : HostMove} {rest : List HostMove} (hr : s.resets = 0) (hb : busy s = true)
    (hh : s.host = m :: rest) (hn : neverHeld m s = true) :
    step s =
      if Config.hostFirst s.draws then performMove m ((s.setDraws (s.draws + 1)).setHost rest)
      else .next (controllerStep (s.setDraws (s.draws + 1))) := by
  simp only [step_no_reset hr, coreStep, hb, if_true, busyStep, hh, hn]

/-- All that a step in which no reset lands can do, if it answers a next state: the controller steps; the host's next
move is performed; or the machine is quiescent with no move pending and nothing changes. `u` is `s` but for the draw a
free choice has used. -/
theorem coreStep_cases {s t : State} (h : coreStep s = .next t) :
    ∃ u, (u = s ∨ u = s.setDraws (s.draws + 1)) ∧
      ((busy s = true ∧ t = controllerStep u) ∨
        (∃ m rest, s.host = m :: rest ∧ (busy s = true → neverHeld m s = true) ∧
          performMove m (u.setHost rest) = .next t) ∨
        (busy s = false ∧ s.host = [] ∧ t = s)) := by
  unfold coreStep at h
  split at h
  · rename_i hb
    unfold busyStep at h
    split at h
    · exact ⟨s, .inl rfl, .inl ⟨hb, by simpa using h.symm⟩⟩
    · rename_i m rest hm
      split at h
      · rename_i hn
        split at h
        · exact ⟨_, .inr rfl, .inr (.inl ⟨m, rest, hm, fun _ => hn, h⟩)⟩
        · exact ⟨_, .inr rfl, .inl ⟨hb, by simpa using h.symm⟩⟩
      · exact ⟨s, .inl rfl, .inl ⟨hb, by simpa using h.symm⟩⟩
  · rename_i hb
    unfold quietStep at h
    split at h
    · rename_i hm
      exact ⟨s, .inl rfl, .inr (.inr ⟨by simpa using hb, hm, by simpa using h.symm⟩)⟩
    · rename_i m rest hm
      exact ⟨s, .inl rfl, .inr (.inl ⟨m, rest, hm, fun h => absurd h hb, h⟩)⟩

/-- All that a step can do, if it answers a next state: a reset lands, or it is a step in which none lands. -/
theorem step_cases {s t : State} (h : step s = .next t) :
    (∃ n, s.resets = n + 1 ∧ t = resetEvent (s.setResets n)) ∨
      ∃ u, (u = s ∨ u = s.setDraws (s.draws + 1)) ∧ coreStep u = .next t := by
  unfold step machineStep at h
  split at h
  · exact .inr ⟨s, .inl rfl, h⟩
  · rename_i n hn
    split at h
    · exact .inl ⟨n, hn, by simpa using h.symm⟩
    · exact .inr ⟨_, .inr rfl, h⟩

/-- All that a host move can do, if it answers a next state. -/
theorem performMove_cases {m : HostMove} {s t : State} (h : performMove m s = .next t) :
    (∃ n, m = .read n ∧ t = answer (.reg n (readRegister s n)) s) ∨
      (∃ n v, m = .write n v ∧ writeRegister n v s = .next t) ∨
      (∃ bytes, m = .writeMsg bytes ∧ fillMsg bytes s = .next t) ∨
      (∃ n, m = .readOut n ∧ readOutBytes n s = .next t) ∨
      (m = .wait ∧ t = answer (.reg 0x01 (readRegister s 0x01)) s) := by
  cases m with
  | read n => exact .inl ⟨n, rfl, by simpa [performMove] using h.symm⟩
  | write n v => exact .inr (.inl ⟨n, v, rfl, h⟩)
  | writeMsg bytes => exact .inr (.inr (.inl ⟨bytes, rfl, h⟩))
  | readOut n => exact .inr (.inr (.inr (.inl ⟨n, rfl, h⟩)))
  | wait => exact .inr (.inr (.inr (.inr ⟨rfl, by simpa [performMove] using h.symm⟩)))

/-- A move that is not held while BUSY never stops the machine, wherever the parameters are the same. -/
theorem performMove_unheld {m : HostMove} {s u : State} (h : neverHeld m s = true) (hc : u.cfg = s.cfg) :
    ∃ t, performMove m u = .next t := by
  cases m with
  | read n => exact ⟨_, rfl⟩
  | write n v => cases h
  | writeMsg bytes =>
    have hx : Config.exceeds bytes.length u.cfg.maxMlen = false := by simpa [hc, neverHeld] using h
    simp only [performMove, fillMsg, hx, Bool.false_eq_true, if_false]
    split <;> exact ⟨_, rfl⟩
  | readOut n =>
    have hx : Config.exceeds n u.cfg.maxOlen = false := by simpa [hc, neverHeld] using h
    simp only [performMove, readOutBytes, hx, Bool.false_eq_true, if_false]
    split <;> exact ⟨_, rfl⟩
  | wait => exact ⟨_, rfl⟩

/-- All that a register write can do, if it answers a next state (44_host_commands.md R234). -/
theorem writeRegister_cases {n v : Nat} {s t : State} (h : writeRegister n v s = .next t) :
    (regOfNumber n = .cmd ∧ v < 2 ^ 8 ∧ issueCommand (BitVec.ofNat 8 v) s = .next t) ∨
      (regOfNumber n = .mlen ∧ Config.fits v s.cfg.lenW = true ∧ t = s.setMlen v) ∨
      (regOfNumber n = .olen ∧ Config.fits v s.cfg.lenW = true ∧ t = s.setOlen v) ∨
      (∃ k : Fin 25, regOfNumber n = .lane k ∧ v < 2 ^ 64 ∧
        t = s.setLanes (setLaneAt s.lanes k.val (BitVec.ofNat 64 v))) ∨
      t = s := by
  unfold writeRegister at h
  split at h
  · rename_i hn
    split at h
    · exact .inl ⟨hn, ‹_›, h⟩
    · cases h
  · exact .inr (.inr (.inr (.inr (by simpa using h.symm))))
  · rename_i hn
    unfold storeMlen at h
    split at h
    · exact .inr (.inl ⟨hn, ‹_›, by simpa using h.symm⟩)
    · cases h
  · rename_i hn
    unfold storeOlen at h
    split at h
    · exact .inr (.inr (.inl ⟨hn, ‹_›, by simpa using h.symm⟩))
    · cases h
  · exact .inr (.inr (.inr (.inr (by simpa using h.symm))))
  · rename_i k hn
    unfold storeLane at h
    split at h
    · exact .inr (.inr (.inr (.inl ⟨k, hn, ‹_›, by simpa using h.symm⟩)))
    · cases h
  · exact .inr (.inr (.inr (.inr (by simpa using h.symm))))

end Sys2Proof.Machine
end

