-- ==== Sys2Proof/Tests/Slice0.lean ====
section
/-! SUPPORT. The model's own tests: expected values are the spec's worked examples and vectors (the file and section is
named at each), and for every statement with hypotheses a state that meets them. -/

namespace Sys2Proof.Tests

open Sys2Proof Sys2Proof.Machine

/-! ## Small states -/

/-- Bytes of a hexadecimal number, first byte most significant. -/
def hexBytes (len n : Nat) : List Byte := (List.range len).map fun i => BitVec.ofNat 8 (n / 256 ^ (len - 1 - i))

/-- The limits of program P6 (95_test_vectors.md section 3): MAX_MLEN = MAX_OLEN = 1024. -/
def limits : Config.Params := ⟨some 1024, some 1024, some 11⟩

/-- IDLE, all lanes zero. -/
def idle : State := { State.powerUp limits 0 with lanes := zeroLanes, mode := .sha3_224, blk := 0, rnd := 0 }

def done : State := { idle with phase := .done, olen := 32, ocnt := 32 }

def error : State := { idle with phase := .error, errcode := .contractViolation }

/-- ABSORB of SHAKE128 on the empty message, 200 bytes of output (program P5, step 2). -/
def absorbing : State := { idle with phase := .absorb, mode := .shake128, olen := 200 }

/-- SQUEEZE of the same, the whole output owed. -/
def squeezing : State := { absorbing with phase := .squeeze }

/-- The state with `v` in lane `k` and zero elsewhere. -/
def oneLane (k : Nat) (v : Lane) : Lanes := setLaneAt zeroLanes k v

/-- One lane of the next state of a command. -/
def laneAfter (i : Instr) (s : State) (k : Nat) : Option Lane :=
  match exec i s with
  | .next t => some (laneAt t.lanes k)
  | .fault _ => none
  | .refused _ => none

/-- All lanes of the next state of a command, by linear index. -/
def lanesAfter (i : Instr) (s : State) : Option (List Lane) :=
  match exec i s with
  | .next t => some ((List.range 25).map (laneAt t.lanes))
  | .fault _ => none
  | .refused _ => none

/-- STATUS and OCNT of the next state of a command. -/
def statusAfter (i : Instr) (s : State) : Option (Byte × Nat) :=
  match exec i s with
  | .next t => some (statusByte t, t.ocnt)
  | .fault _ => none
  | .refused _ => none

/-- Whether an outcome is a next state. -/
def isNext (o : Host.Outcome State Fault Refusal) : Bool :=
  match o with
  | .next _ => true
  | .fault _ => false
  | .refused _ => false

/-! ## Well-formedness and decoding -/

/-- The one check of WellFormed: a round index of 24 or more (30_encoding.md R84). -/
theorem test_iota_24_ill_formed : Instr.wellFormed (.iota 24) = false ∧ Instr.wellFormed (.iota 23) = true := by decide

theorem test_round_31_ill_formed : Instr.wellFormed (.round 31) = false ∧ Instr.wellFormed (.round 0) = true := by decide

/-- Format N words, written out from 30_encoding.md R86. -/
theorem test_decode_format_n :
    decode 0b00000000#8 = .instr .nop ∧ decode 0b00000001#8 = .instr .clr ∧ decode 0b00000010#8 = .instr .init ∧
      decode 0b00010000#8 = .instr .theta ∧ decode 0b00010001#8 = .instr .rho ∧ decode 0b00010010#8 = .instr .pi ∧
      decode 0b00010011#8 = .instr .chi ∧ decode 0b00011000#8 = .instr .keccakf := by decide

/-- Format R words: class `001` or `010`, then `ir` (R82; vectors of 95_test_vectors.md section 9). -/
theorem test_decode_format_r :
    decode 0b00100000#8 = .instr (.iota 0) ∧ decode 0b00101100#8 = .instr (.iota 12) ∧
      decode 0b00110111#8 = .instr (.iota 23) ∧ decode 0b00111000#8 = .reserved .roundIndex ∧
      decode 0b01000000#8 = .instr (.round 0) ∧ decode 0b01010111#8 = .instr (.round 23) ∧
      decode 0b01011000#8 = .reserved .roundIndex := by decide

/-- Format M words: `10000`, then the mode number (R83, R85). -/
theorem test_decode_format_m :
    decode 0b10000000#8 = .instr .hashSha3_224 ∧ decode 0b10000001#8 = .instr .hashSha3_256 ∧
      decode 0b10000010#8 = .instr .hashSha3_384 ∧ decode 0b10000011#8 = .instr .hashSha3_512 ∧
      decode 0b10000100#8 = .instr .hashShake128 ∧ decode 0b10000101#8 = .instr .hashShake256 ∧
      decode 0b10000110#8 = .reserved .modeNumber ∧ decode 0b10000111#8 = .reserved .modeNumber := by decide

/-- Reserved words at the edges of their ranges (95_test_vectors.md section 9). -/
theorem test_decode_reserved :
    decode 0x03#8 = .reserved .unassigned ∧ decode 0x0F#8 = .reserved .unassigned ∧
      decode 0x14#8 = .reserved .unassigned ∧ decode 0x17#8 = .reserved .unassigned ∧
      decode 0x19#8 = .reserved .unassigned ∧ decode 0x1F#8 = .reserved .unassigned ∧
      decode 0x60#8 = .reserved .unassigned ∧ decode 0x7F#8 = .reserved .unassigned ∧
      decode 0x88#8 = .reserved .unassigned ∧ decode 0xFF#8 = .reserved .unassigned := by decide

/-- "There are 62 legal words ... and 194 reserved words" (R86). -/
theorem test_legal_word_count :
    ((List.range 256).filter fun w => (decodeTableWord 8 w).isSome).length = 62 := by decide +kernel

/-- Every table row's word runs as the first command after reset. -/
theorem test_first_step_after_reset :
    ∀ w ∈ [0x00, 0x01, 0x02, 0x10, 0x11, 0x12, 0x13, 0x18, 0x20, 0x40, 0x80, 0x81, 0x82, 0x83, 0x84, 0x85],
      isNext (step (State.reset.withFetchWord 8 w)) = true := by decide

/-! ## Lane primitives (95_test_vectors.md section 2.1) -/

theorem test_rotl64 :
    rotl64 0x8000000000000001#64 1 = 0x0000000000000003#64 ∧ rotl64 0x0123456789ABCDEF#64 0 = 0x0123456789ABCDEF#64 ∧
      rotl64 0x0123456789ABCDEF#64 36 = 0x9ABCDEF012345678#64 ∧
      rotl64 0x0123456789ABCDEF#64 62 = 0xC048D159E26AF37B#64 := by decide

/-- The byte view: `S[3] <- S[3] ^ 0x06` and `S[135] <- 0x80` on the zero state. -/
theorem test_byte_view :
    laneAt (xorBlock zeroLanes 200 fun i => if i = 3 then 0x06#8 else if i = 135 then 0x80#8 else 0#8) 0 =
        0x0000000006000000#64 ∧
      laneAt (xorBlock zeroLanes 200 fun i => if i = 3 then 0x06#8 else if i = 135 then 0x80#8 else 0#8) 16 =
        0x8000000000000000#64 := by decide +kernel

/-! ## Commands -/

/-- NOP in DONE and in ERROR changes nothing (section 9). -/
theorem test_nop : exec .nop done = .next done ∧ exec .nop error = .next error := ⟨rfl, rfl⟩

/-- CLR: STATUS 0x14 to 0x00 (44_host_commands.md R231); in DONE, OCNT stays (section 9). -/
theorem test_clr :
    statusByte error = 0x14#8 ∧ statusAfter .clr error = some (0x00#8, 0) ∧
      statusAfter .clr done = some (0x00#8, 32) := by decide

/-- INIT zeroes the lanes in IDLE; in ERROR it does not (section 9). -/
theorem test_init :
    laneAfter .init { idle with lanes := oneLane 24 5 } 24 = some 0#64 ∧
      laneAfter .init { error with lanes := oneLane 24 5 } 24 = some 5#64 := by decide

/-- THETA, worked example 2 of R131: the rotation wraps bit 63 to bit 0. -/
theorem test_theta_wraps :
    lanesAfter .theta { idle with lanes := oneLane 17 0x8000000000000000#64 } =
      some [0, 1, 0, 0x8000000000000000#64, 0, 0, 1, 0, 0x8000000000000000#64, 0, 0, 1, 0, 0x8000000000000000#64, 0,
        0, 1, 0x8000000000000000#64, 0x8000000000000000#64, 0, 0, 1, 0, 0x8000000000000000#64, 0] := by decide +kernel

/-- RHO of all lanes 1: `L'[k] = 2^RHOT[k]` (section 2.4). -/
theorem test_rho_offsets :
    lanesAfter .rho { idle with lanes := Lanes.ofFn fun _ _ => 1#64 } =
      some [1, 2, 0x4000000000000000, 0x10000000, 0x8000000, 0x1000000000, 0x100000000000, 0x40, 0x80000000000000,
        0x100000, 8, 0x400, 0x80000000000, 0x2000000, 0x8000000000, 0x20000000000, 0x200000000000, 0x8000, 0x200000,
        0x100, 0x40000, 4, 0x2000000000000000, 0x100000000000000, 0x4000] := by decide +kernel

/-- PI of `L[k] = k` (section 2.5). -/
theorem test_pi_positions :
    lanesAfter .pi { idle with lanes := Lanes.ofFn fun x y => BitVec.ofNat 64 (x.val + 5 * y.val) } =
      some [0, 6, 12, 18, 24, 3, 9, 10, 16, 22, 1, 7, 13, 19, 20, 4, 5, 11, 17, 23, 2, 8, 14, 15, 21] := by decide +kernel

/-- CHI on the row F0, 0F, FF, 00, AA (R140). -/
theorem test_chi_row :
    (List.range 5).map (fun k => laneAfter .chi { idle with
        lanes := Lanes.ofFn fun x y =>
          if y = 2 then (Five.mk 0xF0#64 0x0F#64 0xFF#64 0x00#64 0xAA#64).get x else 0#64 } (10 + k)) =
      [some 0x00, some 0x0F, some 0x55, some 0x50, some 0xA5] := by decide +kernel

/-- IOTA 1 on the zero state and IOTA 2 on an all-ones lane (R142). -/
theorem test_iota :
    laneAfter (.iota 1) idle 0 = some 0x8082#64 ∧
      laneAfter (.iota 2) { idle with lanes := oneLane 0 0xFFFFFFFFFFFFFFFF#64 } 0 = some 0x7FFFFFFFFFFF7F75#64 := by
  decide +kernel

/-- ROUND 1 on `A[0,0] = 1` (42_round_permute.md R164). -/
theorem test_round_1 :
    lanesAfter (.round 1) { idle with lanes := oneLane 0 1 } =
      some [0x8083, 0x0000100000000000, 0x8000, 1, 0x0000100000008000, 0, 0x0000200000200000, 0, 0x0000200000000000,
        0x200000, 2, 0x200, 0, 0x202, 0, 0x10000400, 0, 0x400, 0x10000000, 0, 0x0000010000000000, 0,
        0x0000010000000004, 0, 4] := by decide +kernel

/-- KECCAKF on the zero state: the whole test state T (R167, section 2.2). -/
theorem test_keccakf_zero :
    lanesAfter .keccakf idle =
      some [0xF1258F7940E1DDE7, 0x84D5CCF933C0478A, 0xD598261EA65AA9EE, 0xBD1547306F80494D, 0x8B284E056253D057,
        0xFF97A42D7F8E6FD4, 0x90FEE5A0A44647C4, 0x8C5BDA0CD6192E76, 0xAD30A6F71B19059C, 0x30935AB7D08FFC64,
        0xEB5AA93F2317D635, 0xA9A6E6260D712103, 0x81A57C16DBCF555F, 0x43B831CD0347C826, 0x01F22F1A11A5569F,
        0x05E5635A21D9AE61, 0x64BEFEF28CC970F2, 0x613670957BC46611, 0xB87C5A554FD00ECB, 0x8C3EE88A1CCF32C8,
        0x940C7922AE3A2614, 0x1841F924A2C509E4, 0x16F53526E70465C2, 0x75F644E97F30A13B, 0xEAF1FF7B5CECA249] := by
  decide +kernel

/-! ## The hash as one function (95_test_vectors.md sections 1, 4, 7) -/

/-- The source's literal S1. -/
theorem test_sha3_224_abc :
    spongeHash [0x61, 0x62, 0x63] .sha3_224 28 =
      some (hexBytes 28 0xe642824c3f8cf24ad09234ee7d3c766fc9a3a5168d0c94ad73b46fdf) := by decide +kernel

/-- The source's literal S2. -/
theorem test_sha3_256_abc :
    spongeHash [0x61, 0x62, 0x63] .sha3_256 32 =
      some (hexBytes 32 0x3a985da74fe225b2045c172d6bd390bd855f086e3e9d525b46bfe24511431532) := by decide +kernel

theorem test_sha3_384_abc :
    spongeHash [0x61, 0x62, 0x63] .sha3_384 48 =
      some (hexBytes 48
        0xec01498288516fc926459f58e2c6ad8df9b473cb0fc08c2596da7cf0e49be4b298d88cea927ac7f539f1edf228376d25) := by
  decide +kernel

/-- A full extra block: 72 bytes, `MSG[i] = i` (section 6.1). -/
theorem test_sha3_512_full_block :
    spongeHash ((List.range 72).map fun i => BitVec.ofNat 8 i) .sha3_512 64 =
      some (hexBytes 64
        0x5d63f2bbe971a983ac6847480106e4e1264ee3a0befd79954914e1d86e795b2e18238f12fc5e46cb9cc78efdec610a93647cc04e1c23d8caaa6a58c21dd26c07) := by
  decide +kernel

/-- The first byte of a second squeeze block (section 6.4, X5). -/
theorem test_shake128_second_block :
    ((spongeHash [0x61, 0x62, 0x63] .shake128 169).map fun Z => Z.drop 161) =
      some (hexBytes 8 0x29082f5647584e6a) := by decide +kernel

theorem test_shake256_empty :
    spongeHash [] .shake256 32 =
      some (hexBytes 32 0x46b9dd2b0ba88d13233b3feb743eeb243fcd52ea62b81b82b50c27646ed5762f) := by decide +kernel

/-! ## HASH starts (95_test_vectors.md sections 3, 9) -/

/-- Program P4, step 2: OLEN = 31. -/
theorem test_sha3_256_contract : statusAfter .hashSha3_256 { done with mlen := 3, olen := 31 } = some (0x14#8, 0) := by
  decide

/-- Program P6, step 6: both causes present, ContractViolation is reported. -/
theorem test_sha3_384_contract_first : statusAfter .hashSha3_384 { idle with mlen := 1025, olen := 31 } = some (0x14#8, 0) := by
  decide

/-- As program P6, step 7: MLEN = 1025 alone. -/
theorem test_sha3_512_resource : statusAfter .hashSha3_512 { idle with mlen := 1025, olen := 64 } = some (0x24#8, 0) := by
  decide

/-- Program P6, step 5: OLEN = 1025. -/
theorem test_shake256_resource : statusAfter .hashShake256 { idle with olen := 1025 } = some (0x24#8, 0) := by decide

/-- A start from DONE: ABSORB, OCNT 0. -/
theorem test_sha3_224_starts : statusAfter .hashSha3_224 { done with olen := 28 } = some (0x01#8, 0) := by decide

/-- Ignored in ERROR (P4, step 5). -/
theorem test_shake128_ignored_in_error : exec .hashShake128 error = .next error := rfl

/-! ## Controller steps (program P5) -/

/-- Step 2a: after the absorb step `L[0] = 0x7D828FE8A42B9C7F`, `L[20] = 0xA9FCB07CF4EEE7AE`. -/
theorem test_absorb_step :
    (controllerStep absorbing).phase = .squeeze ∧
      laneAt (controllerStep absorbing).lanes 0 = 0x7D828FE8A42B9C7F#64 ∧
      laneAt (controllerStep absorbing).lanes 20 = 0xA9FCB07CF4EEE7AE#64 := by decide +kernel

/-- Step 2b in form: 168 bytes written, byte 160 from `L[20]`, and still SQUEEZE. -/
theorem test_squeeze_step :
    (squeezeStep { squeezing with lanes := oneLane 20 0xA9FCB07CF4EEE7AE#64 }).ocnt = 168 ∧
      (squeezeStep { squeezing with lanes := oneLane 20 0xA9FCB07CF4EEE7AE#64 }).phase = .squeeze ∧
      memRead (squeezeStep { squeezing with lanes := oneLane 20 0xA9FCB07CF4EEE7AE#64 }).out 160 = some 0xAE#8 ∧
      memRead (squeezeStep { squeezing with lanes := oneLane 20 0xA9FCB07CF4EEE7AE#64 }).out 168 = none := by
  decide +kernel

/-! ## Padding (section 5) -/

theorem test_pad :
    pad .sha3_256 134 = [0x06, 0x80] ∧ pad .sha3_256 135 = [0x86] ∧ pad .shake128 167 = [0x9F] ∧
      pad .shake128 166 = [0x1F, 0x80] ∧ (pad .sha3_512 72).length = 72 := by decide

/-! ## Host accesses (section 9) -/

theorem test_write_lane :
    (match step { done with host := [.write 0x23 5] } with
      | .next t => decide (laneAt t.lanes 3 = 5#64 ∧ t.phase = .done)
      | .fault _ => false
      | .refused _ => false) = true := by decide

theorem test_read_status_and_reserved :
    readRegister done 0x01 = 0x03 ∧ readRegister done 0x04 = 32 ∧ readRegister done 0x00 = 0 ∧
      readRegister done 0x1F = 0 ∧ readRegister done 0x39 = 0 := by decide

/-- RD OCNT while ABSORB is held: the controller steps instead. -/
theorem test_read_ocnt_held :
    (match step { absorbing with host := [.read 0x04] } with
      | .next t => decide (t.phase = .squeeze ∧ t.host = [.read 0x04] ∧ t.answers = [])
      | .fault _ => false
      | .refused _ => false) = true := by decide +kernel

/-! ## States that meet the hypotheses of the statements -/

/-- For EncodeOfDecode and DecodeOfEncode: both kinds of word occur, at the edges. -/
theorem witness_words :
    Instr.wellFormed (.iota 23) = true ∧ decode 0x57#8 = .instr (.round 23) ∧ reservedWord 0x03#8 = true ∧
      reservedWord 0x58#8 = true ∧ reservedWord 0x86#8 = true ∧ reservedWord 0xFF#8 = true ∧
      reservedWord 0x85#8 = false := by decide

/-- For StepRunsDecodedCommand: a command next, and no move pending. -/
theorem witness_StepRunsDecodedCommand :
    let s : State := { done with host := [.write 0x00 (0x18#8).toNat, .wait] }
    s.resets = 0 ∧ busy s = false ∧ s.host = .write 0x00 (0x18#8).toNat :: [.wait] ∧
      decode 0x18#8 = .instr .keccakf ∧ done.resets = 0 ∧ busy done = false ∧ done.host = [] := by decide

/-- For ReservedWordRaisesIllegalCommand. -/
theorem witness_ReservedWordRaisesIllegalCommand :
    let s : State := { idle with host := [.write 0x00 (0x38#8).toNat] }
    s.resets = 0 ∧ ready s ∧ s.host = .write 0x00 (0x38#8).toNat :: [] ∧ reservedWord 0x38#8 = true := by decide

/-- For RoundIndexAbove23IsReserved, at both ends. -/
theorem witness_RoundIndexAbove23IsReserved : 23 < (24#5).toNat ∧ 23 < (31#5).toNat ∧ ready done := by decide

/-- For ErrorPhaseIgnoresCommands. -/
theorem witness_ErrorPhaseIgnoresCommands :
    let s : State := { error with host := [.write 0x00 (0xFF#8).toNat] }
    s.resets = 0 ∧ s.phase = .error ∧ s.host = .write 0x00 (0xFF#8).toNat :: [] ∧ 0xFF#8 ≠ encode .clr := by decide

/-- For BusyCommandHasNoEffect, and the BUSY clause of ClrReturnsToIdle. -/
theorem witness_busy : busy absorbing = true ∧ busy squeezing = true ∧ busy idle = false ∧ busy error = false := by decide

/-- For NoCommandWritesLengthsOrBuffers. -/
theorem witness_NoCommandWritesLengthsOrBuffers : isNext (exec .hashShake128 done) = true := by decide

/-- For every statement about an accepted command (InitZeroesLanes to PermutationCommandsByPhase), both clauses. -/
theorem witness_ready : ready idle ∧ ready done ∧ ¬ready error ∧ ¬ready absorbing ∧ ¬ready squeezing := by decide

/-- For IotaAddsRoundConstant, RoundAppliesFiveSubsteps, CommandEquivalences: a round index at each end. -/
theorem witness_round_index : (0#5).toNat < 24 ∧ (23#5).toNat < 24 ∧ ready idle := by decide

/-- For RotationMovesBits: a rotation by 0 mod 64, one that is not, and the highest bit. -/
theorem witness_RotationMovesBits : 64 % 64 = 0 ∧ 63 % 64 ≠ 0 ∧ 63 < 64 := by decide

/-- For PermutationCommandsByPhase. -/
theorem witness_PermutationCommandsByPhase :
    Instr.wellFormed .chi = true ∧ Instr.chi ∈ [Instr.theta, .rho, .pi, .chi, .keccakf] ∧
      Instr.wellFormed (.round 23) = true := by decide

/-- For ByteViewIsLittleEndian: the last byte and the last lane. -/
theorem witness_ByteViewIsLittleEndian : 199 < 200 ∧ 24 < 25 := by decide

/-- For ModeRecordInvariants: a fixed mode. -/
theorem witness_ModeRecordInvariants : (params .sha3_512).fixedOutput = some 64 := by decide

/-- One padding byte, and two. -/
theorem witness_PaddedMessageFillsBlocks :
    rate .sha3_256 - (List.replicate 135 0#8).length % rate .sha3_256 = 1 ∧
      2 ≤ rate .sha3_256 - (List.replicate 134 0#8).length % rate .sha3_256 := by
  rw [List.length_replicate, List.length_replicate]; decide

/-- For PByteIsPaddedByte: the last byte of a two-block message, and a message byte. -/
theorem witness_PByteIsPaddedByte :
    143 < rate .sha3_512 * blockCount .sha3_512 (List.replicate 72 (0xA3#8)).length ∧
      0 < rate .sha3_512 * blockCount .sha3_512 ([] : List Byte).length := by decide

/-- For HashStarts, for each of the six modes: OLEN the fixed size, or any for SHAKE; the lengths at their limits. -/
theorem witness_HashStarts :
    (∀ p ∈ [(Mode.sha3_224, 28), (.sha3_256, 32), (.sha3_384, 48), (.sha3_512, 64), (.shake128, 0), (.shake256, 1024)],
      contractBroken p.1 p.2 = false ∧ Config.exceeds p.2 limits.maxOlen = false) ∧
      ready { done with mlen := 1024 } ∧ Config.exceeds 1024 limits.maxMlen = false := by decide

/-- The first hypothesis of HashStarts and HashResourceExhaustion, for a fixed mode and for SHAKE. -/
theorem witness_HashStarts_contract :
    (∀ f, (params .sha3_256).fixedOutput = some f → done.olen = f) ∧
      ∀ f, (params .shake128).fixedOutput = some f → done.olen = f := by
  constructor <;> intro f hf <;> simp [params] at hf
  subst hf; rfl

/-- For HashContractViolation: OLEN one below and one above the fixed size; a SHAKE mode for its second clause. -/
theorem witness_HashContractViolation :
    (params .sha3_224).fixedOutput = some 28 ∧ ({ idle with olen := 27 } : State).olen ≠ 28 ∧
      ({ idle with olen := 29 } : State).olen ≠ 28 ∧ ready idle ∧ (params .shake128).fixedOutput = none ∧
      isNext (exec (hashInstr .shake128) idle) = true ∧ idle.errcode ≠ .contractViolation := by decide

/-- For HashResourceExhaustion: one byte over each limit. -/
theorem witness_HashResourceExhaustion :
    (∃ k, limits.maxMlen = some k ∧ k < ({ done with mlen := 1025 } : State).mlen) ∧
      (∃ k, limits.maxOlen = some k ∧ k < ({ idle with olen := 1025 } : State).olen) :=
  ⟨⟨1024, rfl, by decide⟩, ⟨1024, rfl, by decide⟩⟩

/-- For AbsorbStepAbsorbsBlock: a last block, and one that is not the last. -/
theorem witness_AbsorbStepAbsorbsBlock :
    absorbing.resets = 0 ∧ absorbing.phase = .absorb ∧ hostWaits absorbing = true ∧
      absorbing.blk + 1 = absorbing.mlen / rate absorbing.mode + 1 ∧
      ({ absorbing with mlen := 168 } : State).blk + 1 ≠
        ({ absorbing with mlen := 168 } : State).mlen / rate absorbing.mode + 1 := by decide

/-- For SqueezeStepEmitsBlock: a last block (ending exactly at the rate), and one that is not the last. -/
theorem witness_SqueezeStepEmitsBlock :
    squeezing.resets = 0 ∧ squeezing.phase = .squeeze ∧ hostWaits squeezing = true ∧ squeezing.disturbed = false ∧
      168 = min (rate squeezing.mode) (squeezing.olen - squeezing.ocnt) ∧ squeezing.ocnt + 168 ≠ squeezing.olen ∧
      ({ squeezing with olen := 168 } : State).ocnt + 168 = ({ squeezing with olen := 168 } : State).olen := by decide

/-- For ZeroLengthOutputWritesNothing. -/
theorem witness_ZeroLengthOutputWritesNothing :
    let s : State := { squeezing with olen := 0 }
    s.resets = 0 ∧ s.phase = .squeeze ∧ hostWaits s = true ∧ s.olen = 0 ∧ s.ocnt = 0 := by decide

/-- A state of every phase meets the invariant (StepKeepsInvariant, BusyHashFinishes). -/
theorem witness_Invariant_absorbing : Invariant absorbing where
  legalCfg := by decide
  msgCanonical := by decide
  outCanonical := by decide
  msgInBuffer := by decide
  outInBuffer := by decide
  errcodeExact := by decide
  mlenFits := by decide
  olenFits := by decide
  ocntFits := by decide
  absorbOwes := by decide
  squeezeOwes := by decide
  checked := by decide

theorem witness_Invariant_error : Invariant error where
  legalCfg := by decide
  msgCanonical := by decide
  outCanonical := by decide
  msgInBuffer := by decide
  outInBuffer := by decide
  errcodeExact := by decide
  mlenFits := by decide
  olenFits := by decide
  ocntFits := by decide
  absorbOwes := by decide
  squeezeOwes := by decide
  checked := by decide

/-- For StepKeepsInvariant: a step from a state that meets the invariant. -/
theorem witness_StepKeepsInvariant : isNext (step absorbing) = true ∧ isNext (step error) = true := by decide

/-- For BusyHashFinishes, beside the invariant: no move pending, and one that the busy hold lets through. -/
theorem witness_BusyHashFinishes :
    absorbing.resets = 0 ∧ busy absorbing = true ∧ hostWaits absorbing = true ∧
      hostWaits { absorbing with host := [.read 0x01] } = false := by decide

/-- For HashComputesSpongeHash. -/
theorem witness_HashComputesSpongeHash :
    ready done ∧ done.resets = 0 ∧ done.host = [] ∧ resourceShort done = false ∧
      spongeHash (message done) .sha3_256 done.olen =
        some (hexBytes 32 0xa7ffc6f8bf1ed76651c14756a061d662f580ff4de43b49fa82d80a4b80f8434a) := by decide +kernel

/-- For OutputByteClosedForm and ShorterOutputIsPrefix. -/
theorem witness_output_lengths : 168 < 169 ∧ 0 < 1 := by decide

/-- For HashIndependentOfHistory: two different histories, each reaching DONE in the same number of steps. -/
theorem witness_HashIndependentOfHistory :
    let s : State := { idle with olen := 0 }
    let s' : State := { done with olen := 0, lanes := oneLane 7 9, out := [(0, 1#8)] }
    let b : State := startHash .shake128 s
    let b' : State := startHash .shake128 s'
    ready s ∧ ready s' ∧ s.resets = 0 ∧ s'.resets = 0 ∧ s.host = [] ∧ s'.host = [] ∧ s.olen = s'.olen ∧
      message s = message s' ∧ b.phase = .absorb ∧ b'.phase = .absorb ∧
      (runSteps 2 b).map (fun t => t.phase) = some .done ∧ (runSteps 2 b').map (fun t => t.phase) = some .done := by
  decide +kernel

/-- The commands of that witness: HASH.SHAKE128 answers these states. -/
theorem witness_HashIndependentOfHistory_exec :
    exec (hashInstr .shake128) { idle with olen := 0 } = .next (startHash .shake128 { idle with olen := 0 }) := rfl

/-- For ControlIndependentOfData: two states that differ in the lanes and in MSG. -/
theorem witness_ControlIndependentOfData :
    let s' : State := { absorbing with lanes := oneLane 3 1, msg := [(0, 7#8)] }
    absorbing.phase = s'.phase ∧ absorbing.mode = s'.mode ∧ absorbing.mlen = s'.mlen ∧ absorbing.olen = s'.olen ∧
      absorbing.ocnt = s'.ocnt ∧ absorbing.blk = s'.blk := by decide

/-- For AbsorbReadsOnlyBelowMlen: MSG differs at MLEN and above. -/
theorem witness_AbsorbReadsOnlyBelowMlen :
    let s : State := { absorbing with mlen := 1, msg := [(0, 7#8)] }
    s.phase = .absorb ∧ ∀ a, a < s.mlen → msgByte { s with msg := [(0, 7#8), (1, 8#8)], era := 5 } a = msgByte s a := by
  refine ⟨rfl, fun a ha => ?_⟩
  have : a = 0 := Nat.lt_one_iff.mp ha
  subst this; rfl

/-- For NoErrorWhileBusy: with no reset to come, and with one. -/
theorem witness_NoErrorWhileBusy :
    busy squeezing = true ∧ squeezing.resets = 0 ∧ busy { absorbing with resets := 1 } = true := by decide

/-- For HeldAccessesWait: each kind of held move. -/
theorem witness_HeldAccessesWait :
    ({ absorbing with host := [.wait] } : State).host = .wait :: [] ∧
      ({ absorbing with host := [.write 0x00 0x01] } : State).host = .write 0x00 0x01 :: [] ∧
      ({ absorbing with host := [.read 0x02] } : State).host = .read 0x02 :: [] ∧ 0x02 ≠ 0x01 ∧
      busy absorbing = true ∧ absorbing.resets = 0 ∧
      Config.exceeds (List.replicate 1025 (0#8)).length absorbing.cfg.maxMlen = true ∧
      Config.exceeds 1025 absorbing.cfg.maxOlen = true := by decide +kernel

/-- A fill that MSG has no room for does not disable the controller: its absorb step comes, and the move stays pending
(70_reset_and_hazards.md R296). -/
theorem test_held_overlong_fill :
    let s : State := { absorbing with cfg := ⟨some 0, some 1024, some 11⟩, host := [.writeMsg [7#8]] }
    (match step s with
      | .next t => some (t.phase, t.host)
      | .fault _ => none
      | .refused _ => none) = some (.squeeze, [.writeMsg [7#8]]) := by decide +kernel

/-- For StatusReadAnsweredWhileBusy. -/
theorem witness_StatusReadAnsweredWhileBusy :
    let s : State := { squeezing with host := [.read 0x01] }
    s.resets = 0 ∧ busy s = true ∧ s.host = .read 0x01 :: [] := by decide

/-- For RegisterReads and RegisterWrites: register numbers at the edges of each range of the map, and widths. -/
theorem witness_registers :
    ({ done with host := [.read 0x38] } : State).host = .read (0x20 + 24) :: [] ∧
      ({ done with host := [.wait] } : State).host = .wait :: [] ∧ busy done = false ∧ done.resets = 0 ∧
      ({ done with host := [.write 0x03 2047] } : State).host = .write 0x03 2047 :: [] ∧
      Config.fits 2047 limits.lenW = true ∧ 2 ^ 64 - 1 < 2 ^ 64 := by decide

/-- What RegisterReads answers at each edge of the map: no two clauses disagree. -/
theorem witness_register_edges :
    regOfNumber 0x00 = .cmd ∧ regOfNumber 0x04 = .ocnt ∧ regOfNumber 0x05 = .reserved ∧ regOfNumber 0x1F = .reserved ∧
      regOfNumber 0x20 = .lane 0 ∧ regOfNumber 0x38 = .lane 24 ∧ regOfNumber 0x39 = .reserved := by decide

/-- For HostFillsMessage: a fill of all of MSG's 1024 bytes, and of none. -/
theorem witness_HostFillsMessage :
    ({ idle with host := [.writeMsg []] } : State).host = .writeMsg [] :: [] ∧ busy idle = false ∧ idle.resets = 0 ∧
      Config.exceeds (List.replicate 1024 (0#8)).length limits.maxMlen = false := by decide +kernel

/-- For ReadOutReturnsResult: the result in DONE, all of OUT in ERROR, nothing, and a read while BUSY. -/
theorem witness_ReadOutReturnsResult :
    let s : State := { done with host := [.readOut 32] }
    s.resets = 0 ∧ s.phase = .done ∧ s.host = .readOut s.ocnt :: [] ∧
      Config.exceeds s.ocnt s.cfg.maxOlen = false ∧ busy s = false ∧
      busy error = false ∧ Config.exceeds 1024 error.cfg.maxOlen = false ∧ Config.exceeds 0 error.cfg.maxOlen = false ∧
      busy { squeezing with host := [.readOut 1] } = true := by decide

/-- For HostMoveStops: each clause one past its limit. -/
theorem witness_HostMoveStops :
    idle.resets = 0 ∧ busy idle = false ∧ ({ idle with host := [.readOut 1025] } : State).host = .readOut 1025 :: [] ∧
      idle.cfg.maxMlen = some 1024 ∧ 1024 < (List.replicate 1025 (0#8)).length ∧ idle.cfg.maxOlen = some 1024 ∧
      1024 < 1025 ∧ 2 ^ 8 ≤ 256 ∧ Config.fits 2048 idle.cfg.lenW = false ∧ 2 ^ 64 ≤ 2 ^ 64 := by decide +kernel

/-- For DisturbedHashOutputIsFree: a fill that disturbs, a disturbed squeeze step (a last one, and one that is not), and a
host that keeps its duty. -/
theorem witness_DisturbedHashOutputIsFree :
    let s : State := { absorbing with mlen := 1 }
    let u : State := { squeezing with disturbed := true }
    busy s = true ∧ ([7#8] : List Byte) ≠ [] ∧ s.mlen ≠ 0 ∧ Config.exceeds 1 s.cfg.maxMlen = false ∧
      u.resets = 0 ∧ u.phase = .squeeze ∧ hostWaits u = true ∧ u.disturbed = true ∧
      168 = min (rate u.mode) (u.olen - u.ocnt) ∧ u.ocnt + 168 ≠ u.olen ∧
      ({ u with olen := 168 } : State).ocnt + 168 = ({ u with olen := 168 } : State).olen ∧
      hostKeepsDuty u = true ∧ busy u = true ∧ isNext (step u) = true := by decide +kernel

/-- For its clause on a step with a fill next: one that disturbs, and the two that do not. -/
theorem witness_fill_while_busy :
    let s : State := { absorbing with mlen := 1, host := [.writeMsg [7#8]] }
    s.resets = 0 ∧ busy s = true ∧ s.host = .writeMsg [7#8] :: [] ∧
      Config.exceeds ([7#8] : List Byte).length s.cfg.maxMlen = false ∧ ¬(([7#8] : List Byte) = [] ∨ s.mlen = 0) ∧
      ({ absorbing with host := [.writeMsg [7#8]] } : State).mlen = 0 ∧
      Config.exceeds ([] : List Byte).length s.cfg.maxMlen = false := by decide

/-- For ResetEventAbandonsHash. -/
theorem witness_ResetEventAbandonsHash : ({ squeezing with resets := 1 } : State).resets = 0 + 1 := by decide

/-- For ParametersLegal. -/
theorem witness_ParametersLegal : Config.legal limits = true ∧ Config.legal ⟨none, none, none⟩ = true := by decide

/-- For OnlyClrOrResetLeavesError. -/
theorem witness_OnlyClrOrResetLeavesError :
    error.phase = .error ∧
      step { error with host := [.write 0x00 (encode .clr).toNat] } = .next (clearError error) ∧
      (clearError error).phase ≠ .error := ⟨rfl, rfl, by decide⟩

end Sys2Proof.Tests
end

section
/-! The open parameters (00_scope.md R10): the legal choices are the fixed points of `Config.legalize`, and it makes every
choice legal. The facts turn on two readings: a limit is below a register's range when the least width it needs is not over
the register's width, and it is at least 64 when raising it to 64 changes nothing. -/

namespace Sys2Proof

@[simp] theorem Config.leastWidth_none : Config.leastWidth none = 0 := rfl

/-- An unbounded register holds every limit. -/
@[simp] theorem Config.limitFits_unbounded (limit : Option Nat) : Config.limitFits limit none = true := by
  cases limit <;> rfl

/-- A limit is below the range of a register exactly when the register has at least the least width of that limit. -/
theorem Config.limitFits_some_iff (limit : Option Nat) (w : Nat) :
    Config.limitFits limit (some w) = true ↔ Config.leastWidth limit ≤ w := by
  cases limit with
  | none => simp [Config.limitFits]
  | some m =>
    by_cases hm : m = 0
    · simp only [Config.limitFits, Config.fits, Config.leastWidth, hm, if_true, decide_eq_true_eq]
      exact iff_of_true (Nat.two_pow_pos w) (Nat.zero_le w)
    · simp only [Config.limitFits, Config.fits, Config.leastWidth, hm, if_false, decide_eq_true_eq]
      exact (Nat.log2_lt hm).symm

/-- 64 is within a limit exactly when the limit, raised to 64, stays as it is. -/
theorem Config.not_exceeds_64_iff (limit : Option Nat) :
    Config.exceeds 64 limit = false ↔ limit.map (max 64) = limit := by
  cases limit with
  | none => simp [Config.exceeds]
  | some m =>
    simp only [Config.exceeds, Option.map_some, Option.some.injEq, decide_eq_false_iff_not]
    omega

@[simp] theorem Config.legalize_maxMlen (p : Config.Params) : (Config.legalize p).maxMlen = p.maxMlen := rfl

@[simp] theorem Config.legalize_maxOlen (p : Config.Params) :
    (Config.legalize p).maxOlen = p.maxOlen.map (max 64) := rfl

/-- With a finite limit, `legalize` widens the registers to what the raised limits need, and never narrows them. -/
theorem Config.legalize_lenW_of_limited {p : Config.Params} (h : ¬(p.maxMlen = none ∧ p.maxOlen = none)) :
    (Config.legalize p).lenW =
      some (max (max (Config.leastWidth p.maxMlen) (Config.leastWidth (p.maxOlen.map (max 64)))) (p.lenW.getD 0)) := by
  obtain ⟨maxMlen, maxOlen, lenW⟩ := p
  cases maxMlen with
  | some m => rfl
  | none =>
    cases maxOlen with
    | some m => rfl
    | none => exact absurd ⟨rfl, rfl⟩ h

/-- With both limits infinite there is nothing to mend. -/
theorem Config.legalize_of_unlimited {p : Config.Params} (h : p.maxMlen = none ∧ p.maxOlen = none) :
    Config.legalize p = p := by
  obtain ⟨_, _, _⟩ := p
  obtain ⟨rfl, rfl⟩ := h
  rfl

/-- With both limits infinite every width is legal, also an unbounded one. -/
theorem Config.legal_of_unlimited {p : Config.Params} (h : p.maxMlen = none ∧ p.maxOlen = none) :
    Config.legal p = true := by
  obtain ⟨hMlen, hOlen⟩ := h
  simp [Config.legal, Config.limitFits, Config.exceeds, hMlen, hOlen]

/-- With a finite limit, a choice is legal exactly when MAX_OLEN is at least 64 and LEN_W is finite and not below the least
width of either limit. -/
theorem Config.legal_iff_of_limited {p : Config.Params} (h : ¬(p.maxMlen = none ∧ p.maxOlen = none)) :
    Config.legal p = true ↔ p.maxOlen.map (max 64) = p.maxOlen ∧
      ∃ w, p.lenW = some w ∧ Config.leastWidth p.maxMlen ≤ w ∧ Config.leastWidth p.maxOlen ≤ w := by
  cases hw : p.lenW with
  | none => simp [Config.legal, hw, h]
  | some w => simp [Config.legal, hw, Config.limitFits_some_iff, Config.not_exceeds_64_iff, and_assoc]

/-- `legalize` makes every choice legal. -/
theorem Config.legal_legalize (p : Config.Params) : Config.legal (Config.legalize p) = true := by
  by_cases h : p.maxMlen = none ∧ p.maxOlen = none
  · rw [Config.legalize_of_unlimited h]
    exact Config.legal_of_unlimited h
  · have h' : ¬((Config.legalize p).maxMlen = none ∧ (Config.legalize p).maxOlen = none) := by simpa using h
    have raisedTwice : (p.maxOlen.map (max 64)).map (max 64) = p.maxOlen.map (max 64) := by
      cases p.maxOlen with
      | none => rfl
      | some m => exact congrArg some (by omega)
    refine (Config.legal_iff_of_limited h').2 ⟨raisedTwice, _, Config.legalize_lenW_of_limited h, ?_, ?_⟩
    · exact Nat.le_trans (Nat.le_max_left ..) (Nat.le_max_left ..)
    · exact Nat.le_trans (Nat.le_max_right ..) (Nat.le_max_left ..)

/-- `legalize` leaves a legal choice as it is. -/
theorem Config.legalize_of_legal {p : Config.Params} (hp : Config.legal p = true) : Config.legalize p = p := by
  by_cases h : p.maxMlen = none ∧ p.maxOlen = none
  · exact Config.legalize_of_unlimited h
  · obtain ⟨hOlen, w, hw, hMlenWidth, hOlenWidth⟩ := (Config.legal_iff_of_limited h).1 hp
    have hlenW : (Config.legalize p).lenW = p.lenW := by
      rw [Config.legalize_lenW_of_limited h, hOlen, hw, Option.getD_some,
        Nat.max_eq_right (Nat.max_le.2 ⟨hMlenWidth, hOlenWidth⟩)]
    calc Config.legalize p
      _ = ⟨p.maxMlen, p.maxOlen.map (max 64), (Config.legalize p).lenW⟩ := rfl
      _ = p := by rw [hOlen, hlenW]

/-- Settles O59: `Config.params` is a value of `legalize`, which makes every choice legal and keeps every legal one. -/
theorem parametersLegal : Obligations.ParametersLegal := by
  unfold Obligations.ParametersLegal
  exact ⟨Config.legal_legalize Config.rawParams, fun _ hp => Config.legalize_of_legal hp⟩

end Sys2Proof
end

section
/-! The register map, STATUS, the byte view, and the steps of a machine that is not BUSY (10_state.md R22, R34, R36,
20_memory.md R61). -/

namespace Sys2Proof.Machine

/-! ### The register numbers -/

theorem regOfNumber_lane {k : Nat} (hk : k < 25) : regOfNumber (0x20 + k) = .lane ⟨k, hk⟩ := by
  have hrange : 0x20 ≤ 0x20 + k ∧ 0x20 + k ≤ 0x38 := by omega
  unfold regOfNumber
  rw [if_neg (by omega), if_neg (by omega), if_neg (by omega), if_neg (by omega), if_neg (by omega),
    dif_pos hrange]
  simp

theorem regOfNumber_reserved {n : Nat} (h : (0x05 ≤ n ∧ n ≤ 0x1F) ∨ 0x39 ≤ n) : regOfNumber n = .reserved := by
  unfold regOfNumber
  rw [if_neg (by omega), if_neg (by omega), if_neg (by omega), if_neg (by omega), if_neg (by omega),
    dif_neg (by omega)]

theorem readRegister_lane (s : State) {k : Nat} (hk : k < 25) :
    readRegister s (0x20 + k) = (laneAt s.lanes k).toNat := by
  simp only [readRegister, regOfNumber_lane hk]

theorem readRegister_reserved (s : State) {n : Nat} (h : (0x05 ≤ n ∧ n ≤ 0x1F) ∨ 0x39 ≤ n) : readRegister s n = 0 := by
  simp only [readRegister, regOfNumber_reserved h]

/-! ### STATUS -/

/-- The four fields of a byte laid out as STATUS is. -/
theorem statusFields (e : BitVec 2) (p : BitVec 3) :
    (0#2 ++ e ++ 0#1 ++ p : Byte).extractLsb' 0 3 = p ∧ (0#2 ++ e ++ 0#1 ++ p : Byte).extractLsb' 4 2 = e ∧
      (0#2 ++ e ++ 0#1 ++ p : Byte).getLsbD 3 = false ∧ (0#2 ++ e ++ 0#1 ++ p : Byte).getLsbD 6 = false ∧
      (0#2 ++ e ++ 0#1 ++ p : Byte).getLsbD 7 = false := by
  decide +revert

theorem statusByte_phase (s : State) : (statusByte s).extractLsb' 0 3 = phaseCode s.phase :=
  (statusFields (errNumber s.errcode) (phaseCode s.phase)).1

theorem phaseCode_injective {p q : Phase} (h : phaseCode p = phaseCode q) : p = q := by
  cases p <;> cases q <;> revert h <;> decide

/-- Settles O27: the two codes fill their own fields of STATUS, whatever they are. -/
theorem statusLayout : Obligations.StatusLayout := by
  unfold Obligations.StatusLayout
  exact ⟨rfl, rfl, fun s => statusFields (errNumber s.errcode) (phaseCode s.phase)⟩

/-! ### The byte view -/

theorem laneByte_toNat (v : Lane) (j : Nat) : (laneByte v j).toNat = v.toNat / 2 ^ (8 * j) % 2 ^ 8 := by
  rw [laneByte, BitVec.extractLsb'_toNat, Nat.shiftRight_eq_div_pow]

/-- `S[8k + j]` is byte `j` of `L[k]` (R22). -/
theorem stateByte_index (A : Lanes) (k : Nat) {j : Nat} (hj : j < 8) :
    stateByte A (8 * k + j) = laneByte (laneAt A k) j := by
  rw [stateByte, show (8 * k + j) / 8 = k by omega, show (8 * k + j) % 8 = j by omega]

/-- A lane as a number is its eight bytes in base 256. -/
theorem lane_toNat_eq_sum_bytes (v : Lane) :
    v.toNat =
      (laneByte v 0).toNat + 2 ^ 8 * (laneByte v 1).toNat + 2 ^ 16 * (laneByte v 2).toNat +
        2 ^ 24 * (laneByte v 3).toNat + 2 ^ 32 * (laneByte v 4).toNat + 2 ^ 40 * (laneByte v 5).toNat +
        2 ^ 48 * (laneByte v 6).toNat + 2 ^ 56 * (laneByte v 7).toNat := by
  have hv : v.toNat < 2 ^ 64 := v.isLt
  simp only [laneByte_toNat]
  omega

/-- Settles O26: a byte of the state is a base-256 digit of its lane, and the eight digits make up the lane. -/
theorem byteViewIsLittleEndian : Obligations.ByteViewIsLittleEndian := by
  unfold Obligations.ByteViewIsLittleEndian
  intro A
  refine ⟨fun i _ => laneByte_toNat _ _, fun k _ => ?_⟩
  have h0 : stateByte A (8 * k) = laneByte (laneAt A k) 0 := stateByte_index A k (j := 0) (by decide)
  rw [h0, stateByte_index A k (j := 1) (by decide), stateByte_index A k (j := 2) (by decide),
    stateByte_index A k (j := 3) (by decide), stateByte_index A k (j := 4) (by decide),
    stateByte_index A k (j := 5) (by decide), stateByte_index A k (j := 6) (by decide),
    stateByte_index A k (j := 7) (by decide)]
  exact lane_toNat_eq_sum_bytes (laneAt A k)

/-! ### Quiescent steps -/

theorem busy_iff {s : State} : busy s = true ↔ s.phase = .absorb ∨ s.phase = .squeeze := by
  cases hp : s.phase <;> simp [busy, hp]

theorem phase_of_not_busy {s : State} (hb : busy s = false) : s.phase ≠ .absorb ∧ s.phase ≠ .squeeze := by
  rw [← not_or, ← busy_iff, hb]
  decide

theorem step_quiescent_move {s : State} {m : HostMove} {rest : List HostMove} (hr : s.resets = 0)
    (hb : busy s = false) (hh : s.host = m :: rest) : step s = performMove m (s.setHost rest) := by
  simp [step_no_reset hr, coreStep, hb, quietStep, hh]

theorem step_quiescent_idle {s : State} (hr : s.resets = 0) (hb : busy s = false) (hh : s.host = []) :
    step s = .next s := by
  simp [step_no_reset hr, coreStep, hb, quietStep, hh]

/-- STATUS of a machine that is not BUSY shows neither ABSORB nor SQUEEZE. -/
theorem statusByte_not_busy {s : State} (hb : busy s = false) :
    (statusByte s).extractLsb' 0 3 ≠ phaseCode .absorb ∧ (statusByte s).extractLsb' 0 3 ≠ phaseCode .squeeze := by
  rw [statusByte_phase]
  exact (phase_of_not_busy hb).imp (mt phaseCode_injective) (mt phaseCode_injective)

/-- Settles O49: a quiescent read records `readRegister`, which the register map gives number by number. -/
theorem registerReads : Obligations.RegisterReads := by
  unfold Obligations.RegisterReads
  intro s rest hr hb
  constructor
  · intro n hh
    refine ⟨readRegister s n, step_quiescent_move hr hb hh, ?_, ?_, ?_, ?_, ?_, ?_, ?_, ?_⟩
    · rintro rfl; rfl
    · rintro rfl; rfl
    · rintro rfl; rfl
    · rintro rfl; rfl
    · rintro rfl; rfl
    · rintro k hk rfl; exact readRegister_lane s hk
    · exact fun h => readRegister_reserved s (.inl h)
    · exact fun h => readRegister_reserved s (.inr h)
  · exact fun hh => ⟨step_quiescent_move hr hb hh, statusByte_not_busy hb⟩

/-- Settles O4: a quiescent step issues the word it finds, and finds nothing to do where no move is pending. -/
theorem stepRunsDecodedCommand : Obligations.StepRunsDecodedCommand := by
  unfold Obligations.StepRunsDecodedCommand
  refine ⟨fun s c rest i hr hb hh hc => ?_, fun s => step_quiescent_idle⟩
  rw [step_command hr hb hh, issueCommand, hc]
  rfl

end Sys2Proof.Machine
end

section
/-! What a command can do, and what it leaves alone (10_state.md R25, R26, 20_memory.md R51, R53). -/

namespace Sys2Proof.Machine

/-- The next states a command word, reserved or not, can answer from `s`. -/
inductive CommandEffect (s : State) : State → Prop where
  | unchanged : CommandEffect s s
  | cleared (hb : busy s = false) : CommandEffect s (clearError s)
  | lanes (hr : ready s) (f : Lanes → Lanes) : CommandEffect s (onLanes f s)
  | permuted (hr : ready s) : CommandEffect s ((permute s).setPhase .idle)
  | reserved (hr : ready s) : CommandEffect s (raiseError .illegalCommand s)
  | hash (hr : ready s) (m : Mode) : CommandEffect s (startHash m s)

/-- An accepted command has the effect of its transition, and one that is ignored or held has none. -/
theorem commandEffect_of_accept {effect : State → State} {s t : State} (h : accept effect s = .next t)
    (heffect : ready s → CommandEffect s (effect s)) : CommandEffect s t := by
  obtain ⟨hr, rfl⟩ | ⟨-, rfl⟩ := accept_cases h
  · exact heffect hr
  · exact .unchanged

/-- CLR clears in IDLE, DONE and ERROR, and is held in ABSORB and SQUEEZE (44_host_commands.md R231, R235). -/
theorem commandEffect_of_acceptClear {s t : State} (h : acceptClear clearError s = .next t) : CommandEffect s t := by
  unfold acceptClear at h
  split at h <;> rename_i hp <;> cases h
  · exact .cleared (by simp [busy, hp])
  · exact .cleared (by simp [busy, hp])
  · exact .cleared (by simp [busy, hp])
  · exact .unchanged
  · exact .unchanged

theorem commandEffect_of_reserved {s t : State} (h : execReserved s = .next t) : CommandEffect s t :=
  commandEffect_of_accept h .reserved

theorem commandEffect_of_withRound {ir : BitVec 5} {f : Fin 24 → Lanes → Lanes} {s t : State}
    (h : withRound ir f s = .next t) : CommandEffect s t := by
  by_cases hir : ir.toNat < 24
  · rw [withRound_legal f s hir] at h
    exact commandEffect_of_accept h fun hr => .lanes hr _
  · rw [withRound_reserved f s hir] at h
    exact commandEffect_of_reserved h

/-- All that a command can do. -/
theorem commandEffect_of_exec {i : Instr} {s t : State} (h : exec i s = .next t) : CommandEffect s t := by
  cases i with
  | nop => cases h; exact .unchanged
  | clr => exact commandEffect_of_acceptClear h
  | init => exact commandEffect_of_accept h fun hr => .lanes hr _
  | theta => exact commandEffect_of_accept h fun hr => .lanes hr _
  | rho => exact commandEffect_of_accept h fun hr => .lanes hr _
  | pi => exact commandEffect_of_accept h fun hr => .lanes hr _
  | chi => exact commandEffect_of_accept h fun hr => .lanes hr _
  | keccakf => exact commandEffect_of_accept (effect := fun u => (permute u).setPhase .idle) h .permuted
  | iota ir => exact commandEffect_of_withRound h
  | round ir => exact commandEffect_of_withRound h
  | hashSha3_224 => exact commandEffect_of_accept h fun hr => .hash hr _
  | hashSha3_256 => exact commandEffect_of_accept h fun hr => .hash hr _
  | hashSha3_384 => exact commandEffect_of_accept h fun hr => .hash hr _
  | hashSha3_512 => exact commandEffect_of_accept h fun hr => .hash hr _
  | hashShake128 => exact commandEffect_of_accept h fun hr => .hash hr _
  | hashShake256 => exact commandEffect_of_accept h fun hr => .hash hr _

/-- All that the write of a command word can do, reserved words included. -/
theorem commandEffect_of_issueCommand {c : Byte} {s t : State} (h : issueCommand c s = .next t) :
    CommandEffect s t := by
  unfold issueCommand at h
  split at h
  · exact commandEffect_of_exec h
  · exact commandEffect_of_reserved h

/-- No command writes the lengths, the buffers, the parameters or the host's side. -/
theorem CommandEffect.frame {s t : State} (h : CommandEffect s t) :
    t.mlen = s.mlen ∧ t.olen = s.olen ∧ t.msg = s.msg ∧ t.out = s.out ∧ t.cfg = s.cfg ∧ t.host = s.host ∧
      t.answers = s.answers ∧ t.resets = s.resets ∧ t.era = s.era := by
  cases h with
  | unchanged => simp
  | cleared => simp [clearError]
  | lanes => simp [onLanes]
  | permuted => simp [permute_eq]
  | reserved => simp [raiseError]
  | hash _ m =>
    obtain ⟨-, h⟩ | ⟨-, -, h⟩ | ⟨-, -, h⟩ := startHash_cases m s
    · simp [h, raiseError]
    · simp [h, raiseError]
    · simp [h, beginAbsorb]

/-- Settles O9: what a command can do is one of six transitions, and none of them writes these fields. -/
theorem noCommandWritesLengthsOrBuffers : Obligations.NoCommandWritesLengthsOrBuffers := by
  unfold Obligations.NoCommandWritesLengthsOrBuffers
  exact fun i s t h => (commandEffect_of_exec h).frame

end Sys2Proof.Machine
end

section
/-! The invariant: it holds after reset and every step keeps it. One lemma for each update of the state and each
transition; a step is put together from them along `step_cases`, `coreStep_cases`, `performMove_cases` and `CommandEffect`. -/

namespace Sys2Proof

/-! ### Limits and widths -/

theorem Config.exceeds_eq_false_iff {n : Nat} {limit : Option Nat} :
    Config.exceeds n limit = false ↔ ∀ m, limit = some m → n ≤ m := by
  cases n <;> cases limit <;> simp [Config.exceeds]

@[simp] theorem Config.fits_zero (width : Option Nat) : Config.fits 0 width = true := by
  cases width with
  | none => rfl
  | some w => exact decide_eq_true (Nat.two_pow_pos w)

theorem Config.fits_of_le {m n : Nat} {width : Option Nat} (h : m ≤ n) (hn : Config.fits n width = true) :
    Config.fits m width = true := by
  cases width with
  | none => rfl
  | some w => exact decide_eq_true (Nat.lt_of_le_of_lt h (of_decide_eq_true hn))

namespace Machine

/-- An address below a length that is within the limit is an address of the buffer. -/
theorem inBuffer_of_lt {a n : Nat} {size : Option Nat} (ha : a < n) (hn : Config.exceeds n size = false) :
    inBuffer a size = true := by
  have h : Config.exceeds (a + 1) size = false :=
    Config.exceeds_eq_false_iff.2 fun m hm => Nat.le_trans ha (Config.exceeds_eq_false_iff.1 hn m hm)
  simp [inBuffer, h]

/-- A run of writes at addresses below a length within the limit reaches only addresses of the buffer. -/
theorem memWriteAll_inBuffer {m : Memory} {size : Option Nat} {a n : Nat} {bytes : List Byte}
    (hm : ∀ c ∈ m, inBuffer c.1 size = true) (hlen : a + bytes.length ≤ n) (hn : Config.exceeds n size = false) :
    ∀ c ∈ memWriteAll m a bytes, inBuffer c.1 size = true := by
  intro c hc
  obtain ⟨-, hlt⟩ | hc := mem_memWriteAll hc
  · exact inBuffer_of_lt (Nat.lt_of_lt_of_le hlt hlen) hn
  · exact hm c hc

theorem exceeds_olen_of_resourceShort {s : State} (h : resourceShort s = false) :
    Config.exceeds s.olen s.cfg.maxOlen = false :=
  (Bool.or_eq_false_iff.1 h).2

theorem busy_of_ready {s : State} (h : ready s) : busy s = false := by
  rcases h with h | h <;> simp [busy, h]

theorem phase_ne_error_of_ready {s : State} (h : ready s) : s.phase ≠ .error := by
  rcases h with h | h <;> simp [h]

/-! ### After reset -/

/-- The state a reset leaves meets the invariant, whatever the draw. -/
theorem invariant_powerUp {cfg : Config.Params} (h : Config.legal cfg = true) (d : Nat) :
    Invariant (State.powerUp cfg d) where
  legalCfg := h
  msgCanonical := List.Pairwise.nil
  outCanonical := List.Pairwise.nil
  msgInBuffer := nofun
  outInBuffer := nofun
  errcodeExact := by simp [State.powerUp]
  mlenFits := Config.fits_zero _
  olenFits := Config.fits_zero _
  ocntFits := Config.fits_zero _
  absorbOwes := nofun
  squeezeOwes := nofun
  checked := nofun

/-- Settles O57: the parameters are legal, and the rest is the table of R41. -/
theorem resetMeetsInvariant : Obligations.ResetMeetsInvariant := by
  unfold Obligations.ResetMeetsInvariant
  exact invariant_powerUp (Config.legal_legalize Config.rawParams) 0

/-- Settles O55: these fields of the power-up state are written out in it. -/
theorem resetValues : Obligations.ResetValues := by
  unfold Obligations.ResetValues
  exact ⟨rfl, rfl, rfl, rfl, rfl, rfl⟩

/-! ### Updates of fields the invariant does not read -/

section
variable {s : State} (hs : Invariant s)
include hs

theorem Invariant.setLanes (v : Lanes) : Invariant (s.setLanes v) := { hs with }
theorem Invariant.setRnd (v : Fin 24) : Invariant (s.setRnd v) := { hs with }
theorem Invariant.setHost (v : List HostMove) : Invariant (s.setHost v) := { hs with }
theorem Invariant.setAnswers (v : List Answer) : Invariant (s.setAnswers v) := { hs with }
theorem Invariant.setDisturbed (v : Bool) : Invariant (s.setDisturbed v) := { hs with }
theorem Invariant.setDraws (v : Nat) : Invariant (s.setDraws v) := { hs with }

theorem Invariant.resetEvent (n : Nat) : Invariant (resetEvent (s.setResets n)) :=
  { invariant_powerUp hs.legalCfg s.draws with }

/-! ### Updates of fields the invariant reads -/

/-- While not BUSY nothing is said of MLEN but its width. -/
theorem Invariant.setMlen {v : Nat} (hb : busy s = false) (hv : Config.fits v s.cfg.lenW = true) :
    Invariant (s.setMlen v) :=
  { hs with
    mlenFits := hv
    absorbOwes := fun hp => absurd hp (phase_of_not_busy hb).1
    checked := fun h => absurd h (Bool.eq_false_iff.1 hb) }

theorem Invariant.setOlen {v : Nat} (hb : busy s = false) (hv : Config.fits v s.cfg.lenW = true) :
    Invariant (s.setOlen v) :=
  { hs with
    olenFits := hv
    squeezeOwes := fun hp => absurd hp (phase_of_not_busy hb).2
    checked := fun h => absurd h (Bool.eq_false_iff.1 hb) }

theorem Invariant.setOcnt_zero (hb : busy s = false) : Invariant (s.setOcnt 0) :=
  { hs with
    ocntFits := Config.fits_zero _
    absorbOwes := fun hp => absurd hp (phase_of_not_busy hb).1
    squeezeOwes := fun hp => absurd hp (phase_of_not_busy hb).2 }

/-- A fill of MSG that is within its size. -/
theorem Invariant.setMsg_fill {bytes : List Byte} (h : Config.exceeds bytes.length s.cfg.maxMlen = false) :
    Invariant (s.setMsg (memWriteAll s.msg 0 bytes)) :=
  { hs with
    msgCanonical := memWriteAll_wf bytes 0 hs.msgCanonical
    msgInBuffer := memWriteAll_inBuffer hs.msgInBuffer (Nat.le_of_eq (Nat.zero_add _)) h }

/-- A HASH in progress writes OUT only below OLEN, which its checks have found to be within the size of OUT. -/
theorem Invariant.setOut_hash (hb : busy s = true) {a : Nat} {bytes : List Byte} (h : a + bytes.length ≤ s.olen) :
    Invariant (s.setOut (memWriteAll s.out a bytes)) :=
  { hs with
    outCanonical := memWriteAll_wf bytes a hs.outCanonical
    outInBuffer :=
      memWriteAll_inBuffer hs.outInBuffer h (exceeds_olen_of_resourceShort (hs.checked hb).2) }

/-- The phases with no HASH in progress owe nothing; the error code must be the one of the phase. -/
theorem Invariant.setPhase_setErrcode_quiet {p : Phase} {e : ErrCode} (hp : p ≠ .absorb ∧ p ≠ .squeeze)
    (he : e ≠ .none ↔ p = .error) : Invariant ((s.setPhase p).setErrcode e) :=
  { hs with
    errcodeExact := he
    absorbOwes := fun h => absurd h hp.1
    squeezeOwes := fun h => absurd h hp.2
    checked := fun h => absurd (busy_iff.1 h) (not_or.2 hp) }

theorem Invariant.clearError : Invariant (clearError s) :=
  hs.setPhase_setErrcode_quiet (by decide) (by decide)

theorem Invariant.raiseError {e : ErrCode} (he : e ≠ .none) : Invariant (raiseError e s) :=
  hs.setPhase_setErrcode_quiet (by decide) (by simp [he])

theorem Invariant.errcode_none (hp : s.phase ≠ .error) : s.errcode = .none :=
  Decidable.not_not.1 fun h => hp (hs.errcodeExact.1 h)

theorem Invariant.setPhase_idle (hp : s.phase ≠ .error) : Invariant (s.setPhase .idle) := by
  have hcleared := hs.clearError
  rw [Machine.clearError, ← hs.errcode_none hp] at hcleared
  exact hcleared

theorem Invariant.ocnt_le_olen (hb : busy s = true) : s.ocnt ≤ s.olen := by
  obtain hp | hp := busy_iff.1 hb
  · have := (hs.absorbOwes hp).2
    omega
  · have := hs.squeezeOwes hp
    omega

/-! ### Commands -/

theorem Invariant.permute : Invariant (permute s) := by
  rw [permute_eq]
  exact ((hs.setLanes _).setRnd _).setDraws _

/-- A HASH that has passed its checks owes all its blocks (43_sponge_controller.md R201). -/
theorem Invariant.beginAbsorb {m : Mode} (hp : s.phase ≠ .error) (h0 : s.ocnt = 0)
    (hcontract : contractBroken m s.olen = false) (hresource : resourceShort s = false) :
    Invariant (beginAbsorb m s) :=
  { hs with
    errcodeExact := by simp [Machine.beginAbsorb, hs.errcode_none hp]
    absorbOwes := fun _ => ⟨Nat.succ_pos _, h0⟩
    squeezeOwes := nofun
    checked := fun _ => ⟨hcontract, hresource⟩ }

theorem Invariant.startHash (hr : ready s) (m : Mode) : Invariant (startHash m s) := by
  have h0 : Invariant (s.setOcnt 0) := hs.setOcnt_zero (busy_of_ready hr)
  obtain ⟨-, h⟩ | ⟨-, -, h⟩ | ⟨hcontract, hresource, h⟩ := startHash_cases m s <;> rw [h]
  · exact h0.raiseError (by decide)
  · exact h0.raiseError (by decide)
  · exact h0.beginAbsorb (phase_ne_error_of_ready hr) rfl hcontract hresource

theorem Invariant.commandEffect {t : State} (h : CommandEffect s t) : Invariant t := by
  cases h with
  | unchanged => exact hs
  | cleared hb => exact hs.clearError
  | lanes hr f => exact (hs.setLanes _).setPhase_idle (phase_ne_error_of_ready hr)
  | permuted hr => exact hs.permute.setPhase_idle (by rw [permute_eq]; exact phase_ne_error_of_ready hr)
  | reserved hr => exact hs.raiseError (by decide)
  | hash hr m => exact hs.startHash hr m

/-! ### Host moves -/

theorem Invariant.answer (a : Answer) : Invariant (answer a s) := hs.setAnswers _

/-- A fill that disturbs comes while BUSY, and makes free the bytes below OCNT, which is not above OLEN. -/
theorem Invariant.disturb (hb : busy s = true) : Invariant (disturb s) := by
  have hlen : 0 + (freeBytes s.draws 0 s.ocnt).length ≤ s.olen := by simpa using hs.ocnt_le_olen hb
  exact ((hs.setOut_hash hb hlen).setDisturbed _).setDraws _

theorem Invariant.fillMsg {bytes : List Byte} {t : State} (h : fillMsg bytes s = .next t) : Invariant t := by
  unfold Machine.fillMsg at h
  split at h
  · cases h
  · rename_i hfits
    have hfilled := hs.setMsg_fill (bytes := bytes) (by simpa using hfits)
    split at h <;> cases h
    · rename_i hd
      exact hfilled.disturb (Bool.and_eq_true_iff.1 hd).1
    · exact hfilled

theorem Invariant.readOutBytes {n : Nat} {t : State} (h : readOutBytes n s = .next t) : Invariant t := by
  unfold Machine.readOutBytes at h
  split at h
  · cases h
  · split at h <;> cases h
    · exact (hs.answer _).setDraws _
    · exact hs.answer _

/-- Every register write waits while BUSY (44_host_commands.md R234, 70_reset_and_hazards.md R290). -/
theorem Invariant.writeRegister {n v : Nat} {t : State} (hb : busy s = false) (h : writeRegister n v s = .next t) :
    Invariant t := by
  obtain ⟨-, -, h⟩ | ⟨-, hv, rfl⟩ | ⟨-, hv, rfl⟩ | ⟨k, -, -, rfl⟩ | rfl := writeRegister_cases h
  · exact hs.commandEffect (commandEffect_of_issueCommand h)
  · exact hs.setMlen hb hv
  · exact hs.setOlen hb hv
  · exact hs.setLanes _
  · exact hs

theorem Invariant.performMove {m : HostMove} {t : State} (hheld : busy s = true → neverHeld m s = true)
    (h : performMove m s = .next t) : Invariant t := by
  obtain ⟨n, -, rfl⟩ | ⟨n, v, rfl, h⟩ | ⟨bytes, -, h⟩ | ⟨n, -, h⟩ | ⟨-, rfl⟩ := performMove_cases h
  · exact hs.answer _
  · have hb : busy s = false := Bool.eq_false_iff.2 fun hb => Bool.false_ne_true (hheld hb)
    exact hs.writeRegister hb h
  · exact hs.fillMsg h
  · exact hs.readOutBytes h
  · exact hs.answer _

/-! ### The controller's steps -/

/-- An absorb step has one block fewer to come, and enters SQUEEZE with OCNT 0 (43_sponge_controller.md R203). -/
theorem Invariant.absorbStep (hp : s.phase = .absorb) : Invariant (absorbStep s) := by
  obtain ⟨hblk, hocnt⟩ := hs.absorbOwes hp
  by_cases hlast : s.blk + 1 = blockCount s.mode s.mlen
  · have howes : s.ocnt < s.olen ∨ (s.ocnt = 0 ∧ s.olen = 0) := by omega
    rw [absorbStep_last hlast]
    exact
      { hs with
        errcodeExact := by simp [hs.errcode_none (by simp [hp])]
        absorbOwes := nofun
        squeezeOwes := fun _ => howes
        checked := fun _ => hs.checked (busy_iff.2 (.inl hp)) }
  · rw [absorbStep_more hlast]
    exact { hs with absorbOwes := fun _ => ⟨Nat.lt_of_le_of_ne hblk hlast, hocnt⟩ }

/-- A squeeze step writes OUT up to the new OCNT, which stays below OLEN until DONE (43_sponge_controller.md R205). -/
theorem Invariant.squeezeStep (hp : s.phase = .squeeze) : Invariant (squeezeStep s) := by
  have hb : busy s = true := busy_iff.2 (.inr hp)
  have hle : s.ocnt + takeCount s ≤ s.olen := by
    have := hs.ocnt_le_olen hb
    unfold takeCount
    omega
  have hout := hs.setOut_hash hb (a := s.ocnt) (bytes := emitted s) (by simpa using hle)
  have hocnt : Config.fits (s.ocnt + takeCount s) s.cfg.lenW = true := Config.fits_of_le hle hs.olenFits
  by_cases hlast : s.ocnt + takeCount s = s.olen
  · rw [squeezeStep_last hlast]
    exact
      { hout with
        ocntFits := hocnt
        errcodeExact := by simp [emitBlock, hs.errcode_none (by simp [hp])]
        absorbOwes := nofun
        squeezeOwes := nofun
        checked := nofun }
  · rw [squeezeStep_more hlast]
    exact
      { hout with
        ocntFits := hocnt
        absorbOwes := fun h => absurd (hp.symm.trans h) (by decide)
        squeezeOwes := fun _ => .inl (Nat.lt_of_le_of_ne hle hlast) }

theorem Invariant.controllerStep : Invariant (controllerStep s) := by
  unfold Machine.controllerStep
  split
  · exact hs.absorbStep ‹_›
  · exact hs.squeezeStep ‹_›
  · exact hs
  · exact hs
  · exact hs

/-! ### Steps -/

theorem Invariant.coreStep {t : State} (h : coreStep s = .next t) : Invariant t := by
  obtain ⟨u, hu, hcase⟩ := coreStep_cases h
  have hui : Invariant u := by
    obtain rfl | rfl := hu
    · exact hs
    · exact hs.setDraws _
  obtain ⟨-, rfl⟩ | ⟨m, rest, -, hheld, h⟩ | ⟨-, -, rfl⟩ := hcase
  · exact hui.controllerStep
  · refine (hui.setHost rest).performMove ?_ h
    obtain rfl | rfl := hu <;> exact hheld
  · exact hs

end

/-- Settles O58: a step is a reset, a controller step or a host move that is not held, and each keeps the invariant. -/
theorem stepKeepsInvariant : Obligations.StepKeepsInvariant := by
  unfold Obligations.StepKeepsInvariant
  intro s t hs hstep
  obtain ⟨n, -, rfl⟩ | ⟨u, rfl | rfl, h⟩ := step_cases hstep
  · exact hs.resetEvent n
  · exact hs.coreStep h
  · exact (hs.setDraws _).coreStep h

end Machine
end Sys2Proof
end

section
/-! The buffers and the host (20_memory.md): an absorb step reads MSG below MLEN only, the moves that stop a quiescent
machine, and a HASH whose message the host writes while it is in progress. -/

namespace Sys2Proof

theorem Config.exceeds_of_lt {k n : Nat} {limit : Option Nat} (hlimit : limit = some k) (h : k < n) :
    Config.exceeds n limit = true :=
  Bool.of_not_eq_false fun hfits => absurd (Config.exceeds_eq_false_iff.1 hfits k hlimit) (Nat.not_le.2 h)

namespace Machine

/-! ### What an absorb step reads -/

theorem controllerStep_absorb {s : State} (hp : s.phase = .absorb) : controllerStep s = absorbStep s := by
  simp [controllerStep, hp]

theorem controllerStep_squeeze {s : State} (hp : s.phase = .squeeze) : controllerStep s = squeezeStep s := by
  simp [controllerStep, hp]

theorem absorbStep_lanes (s : State) :
    (absorbStep s).lanes = keccakF (xorBlock s.lanes (rate s.mode) (blockByte s)) := by
  by_cases h : s.blk + 1 = blockCount s.mode s.mlen
  · rw [absorbStep_last h]; rfl
  · rw [absorbStep_more h]; rfl

/-- The padded message takes only its first `n` bytes from the message (43_sponge_controller.md R185). -/
theorem pByte_congr {f g : Nat → Byte} {n : Nat} (m : Mode) (h : ∀ a, a < n → f a = g a) (i : Nat) :
    pByte f m n i = pByte g m n i := by
  by_cases hi : i < n
  · simp only [pByte, if_pos hi, h i hi]
  · simp only [pByte, if_neg hi]

/-- Settles O45: the lanes take MSG through the padded message alone, which ends the message at MLEN. -/
theorem absorbReadsOnlyBelowMlen : Obligations.AbsorbReadsOnlyBelowMlen := by
  unfold Obligations.AbsorbReadsOnlyBelowMlen
  intro s msg' era' hp hmsg
  have hblock : blockByte { s with msg := msg', era := era' } = blockByte s :=
    funext fun _ => pByte_congr s.mode hmsg _
  rw [controllerStep_absorb hp, controllerStep_absorb (s := { s with msg := msg', era := era' }) hp,
    absorbStep_lanes, absorbStep_lanes, hblock]

/-! ### The moves that stop a quiescent machine -/

theorem fillMsg_absent {bytes : List Byte} {s : State} (h : Config.exceeds bytes.length s.cfg.maxMlen = true) :
    fillMsg bytes s = .refused .absentMsgAddress := by
  simp [fillMsg, h]

theorem readOutBytes_absent {n : Nat} {s : State} (h : Config.exceeds n s.cfg.maxOlen = true) :
    readOutBytes n s = .refused .absentOutAddress := by
  simp [readOutBytes, h]

theorem writeRegister_cmd_wide {v : Nat} (s : State) (hv : 2 ^ 8 ≤ v) :
    writeRegister 0x00 v s = .refused .valueNotOfWidth :=
  if_neg (Nat.not_lt.2 hv)

theorem writeRegister_mlen_wide {v : Nat} {s : State} (hv : Config.fits v s.cfg.lenW = false) :
    writeRegister 0x02 v s = .refused .valueNotOfWidth :=
  if_neg (Bool.eq_false_iff.1 hv)

theorem writeRegister_olen_wide {v : Nat} {s : State} (hv : Config.fits v s.cfg.lenW = false) :
    writeRegister 0x03 v s = .refused .valueNotOfWidth :=
  if_neg (Bool.eq_false_iff.1 hv)

theorem writeRegister_lane_wide {k v : Nat} (s : State) (hk : k < 25) (hv : 2 ^ 64 ≤ v) :
    writeRegister (0x20 + k) v s = .refused .valueNotOfWidth := by
  simp only [writeRegister, regOfNumber_lane hk]
  exact if_neg (Nat.not_lt.2 hv)

/-- Settles O53: a quiescent step performs the move, and each of these is refused by the size or width it is over. -/
theorem hostMoveStops : Obligations.HostMoveStops := by
  unfold Obligations.HostMoveStops
  intro s m rest hr hb hh
  have hstep : step s = performMove m (s.setHost rest) := step_quiescent_move hr hb hh
  refine ⟨?_, ?_, ?_⟩
  · rintro k bytes rfl hsize hlen
    exact hstep.trans (fillMsg_absent (Config.exceeds_of_lt hsize hlen))
  · rintro k n rfl hsize hlen
    exact hstep.trans (readOutBytes_absent (Config.exceeds_of_lt hsize hlen))
  · rintro n v rfl (⟨rfl, hv⟩ | ⟨rfl | rfl, hv⟩ | ⟨hlow, hhigh, hv⟩)
    · exact hstep.trans (writeRegister_cmd_wide _ hv)
    · exact hstep.trans (writeRegister_mlen_wide hv)
    · exact hstep.trans (writeRegister_olen_wide hv)
    · obtain ⟨k, rfl⟩ := Nat.exists_eq_add_of_le hlow
      exact hstep.trans (writeRegister_lane_wide _ (by omega) hv)

/-! ### Fills of MSG while BUSY -/

/-- A run of writes from address 0. -/
theorem memRead_fill (m : Memory) (bytes : List Byte) (a : Nat) :
    memRead (memWriteAll m 0 bytes) a = if a < bytes.length then bytes[a]? else memRead m a := by
  simp [memRead_memWriteAll]

theorem getElem?_freeBytes (d a : Nat) {j n : Nat} (hj : j < n) :
    (freeBytes d a n)[j]? = some (Config.freeOut d (a + j)) := by
  simp [freeBytes, hj]

/-- Free bytes of one draw, written from `a` on: each address takes its own. -/
theorem memRead_write_freeBytes (m : Memory) (d a n b : Nat) :
    memRead (memWriteAll m a (freeBytes d a n)) b =
      if a ≤ b ∧ b < a + n then some (Config.freeOut d b) else memRead m b := by
  rw [memRead_memWriteAll, length_freeBytes]
  split
  · rw [getElem?_freeBytes d a (by omega), Nat.add_sub_cancel' (by omega)]
  · rfl

/-- Free bytes of one draw, written from address 0 on. -/
theorem memRead_fill_freeBytes (m : Memory) (d n a : Nat) :
    memRead (memWriteAll m 0 (freeBytes d 0 n)) a = if a < n then some (Config.freeOut d a) else memRead m a := by
  simp [memRead_write_freeBytes]

theorem disturbs_iff {bytes : List Byte} {s : State} :
    disturbs bytes s = true ↔ busy s = true ∧ ¬(bytes = [] ∨ s.mlen = 0) := by
  simp only [disturbs, Bool.and_eq_true, decide_eq_true_eq, Nat.lt_min, List.length_pos_iff, not_or,
    Nat.pos_iff_ne_zero (n := s.mlen), ne_eq]

theorem disturb_eq (s : State) :
    disturb s =
      { s with
        out := memWriteAll s.out 0 (freeBytes s.draws 0 s.ocnt), disturbed := true, draws := s.draws + 1 } := rfl

theorem fillMsg_disturbing {bytes : List Byte} {s : State} (hd : disturbs bytes s = true)
    (hfits : Config.exceeds bytes.length s.cfg.maxMlen = false) :
    fillMsg bytes s = .next (disturb (s.setMsg (memWriteAll s.msg 0 bytes))) := by
  simp [fillMsg, hfits, hd]

theorem fillMsg_harmless {bytes : List Byte} {s : State} (hd : disturbs bytes s = false)
    (hfits : Config.exceeds bytes.length s.cfg.maxMlen = false) :
    fillMsg bytes s = .next (s.setMsg (memWriteAll s.msg 0 bytes)) := by
  simp [fillMsg, hfits, hd]

/-- A step with a fill next that fits in MSG: the fill, or the controller's step. A fill that disturbs frees the bytes of
OUT below OCNT and sets the mark (20_memory.md R62), and so uses one draw more; the draws are written alike in both, as one
value. -/
theorem step_fill_while_busy {s : State} {bytes : List Byte} {rest : List HostMove} (hr : s.resets = 0)
    (hb : busy s = true) (hh : s.host = .writeMsg bytes :: rest)
    (hfits : Config.exceeds bytes.length s.cfg.maxMlen = false) :
    step s =
      if Config.hostFirst s.draws then
        if bytes = [] ∨ s.mlen = 0 then
          .next
            { s with
              host := rest, msg := memWriteAll s.msg 0 bytes,
              draws := if bytes = [] ∨ s.mlen = 0 then s.draws + 1 else s.draws + 2 }
        else
          .next
            { s with
              host := rest, msg := memWriteAll s.msg 0 bytes,
              out := memWriteAll s.out 0 (freeBytes (s.draws + 1) 0 s.ocnt), disturbed := true,
              draws := if bytes = [] ∨ s.mlen = 0 then s.draws + 1 else s.draws + 2 }
      else .next (controllerStep { s with draws := s.draws + 1 }) := by
  rw [step_unheld hr hb hh (by simp [neverHeld, hfits]), performMove]
  have hd : disturbs bytes ((s.setDraws (s.draws + 1)).setHost rest) = true ↔ ¬(bytes = [] ∨ s.mlen = 0) :=
    disturbs_iff.trans (and_iff_right hb)
  by_cases hharmless : bytes = [] ∨ s.mlen = 0
  · rw [fillMsg_harmless (Bool.eq_false_iff.2 fun h => hd.1 h hharmless) hfits]
    simp only [if_pos hharmless]
    rfl
  · rw [fillMsg_disturbing (hd.2 hharmless) hfits]
    simp only [if_neg hharmless, disturb_eq, State.setMsg_draws, State.setHost_draws, State.setDraws_draws]
    rfl

/-! ### The mark of a disturbed HASH -/

theorem step_hostWaits {s : State} (hr : s.resets = 0) (hb : busy s = true) (hw : hostWaits s = true) :
    step s = .next (controllerStep s) := by
  refine step_held hr hb fun m rest hm => ?_
  simpa [hostWaits, hm] using hw

theorem squeezeStep_ocnt (s : State) : (squeezeStep s).ocnt = s.ocnt + takeCount s := by
  by_cases h : s.ocnt + takeCount s = s.olen
  · rw [squeezeStep_last h]; rfl
  · rw [squeezeStep_more h]; rfl

theorem squeezeStep_out (s : State) : (squeezeStep s).out = (emitBlock s).out := by
  by_cases h : s.ocnt + takeCount s = s.olen
  · rw [squeezeStep_last h]; rfl
  · rw [squeezeStep_more h]; rfl

theorem squeezeStep_done_iff {s : State} (hp : s.phase = .squeeze) :
    (squeezeStep s).phase = .done ↔ s.ocnt + takeCount s = s.olen := by
  by_cases h : s.ocnt + takeCount s = s.olen
  · simp [squeezeStep_last h, h]
  · simp [squeezeStep_more h, emitBlock, h, hp]

/-- A block emitted by a marked HASH is free bytes of one draw. -/
theorem memRead_emitBlock_disturbed {s : State} (hd : s.disturbed = true) (a : Nat) :
    memRead (emitBlock s).out a =
      if s.ocnt ≤ a ∧ a < s.ocnt + takeCount s then some (Config.freeOut s.draws a) else memRead s.out a := by
  simp only [emitBlock, State.setOcnt_out, State.setOut_out, emitted, hd, if_true]
  exact memRead_write_freeBytes s.out s.draws s.ocnt (takeCount s) a

theorem readOutBytes_disturbed {n : Nat} {s t : State} (h : readOutBytes n s = .next t) :
    t.disturbed = s.disturbed := by
  unfold readOutBytes at h
  split at h
  · cases h
  · split at h <;> cases h <;> rfl

/-- A move that is not held leaves the mark, or is a fill that disturbs and sets it. -/
theorem performMove_disturbed {m : HostMove} {s t : State} (hn : neverHeld m s = true)
    (h : performMove m s = .next t) :
    t.disturbed = s.disturbed ∨ (t.disturbed = true ∧ ∃ bytes, m = .writeMsg bytes ∧ disturbs bytes s = true) := by
  obtain ⟨n, -, rfl⟩ | ⟨n, v, rfl, -⟩ | ⟨bytes, rfl, h⟩ | ⟨n, -, h⟩ | ⟨-, rfl⟩ := performMove_cases h
  · exact .inl rfl
  · exact absurd hn Bool.false_ne_true
  · have hfits : Config.exceeds bytes.length s.cfg.maxMlen = false := by simpa [neverHeld] using hn
    cases hd : disturbs bytes s with
    | true =>
      cases (fillMsg_disturbing hd hfits).symm.trans h
      exact .inr ⟨rfl, bytes, rfl, hd⟩
    | false =>
      cases (fillMsg_harmless hd hfits).symm.trans h
      exact .inl rfl
  · exact .inl (readOutBytes_disturbed h)
  · exact .inl rfl

/-- A step of a HASH in progress leaves the mark, or performs a fill that disturbs and sets it. -/
theorem step_disturbed {s t : State} (hr : s.resets = 0) (hb : busy s = true) (h : step s = .next t) :
    t.disturbed = s.disturbed ∨
      (t.disturbed = true ∧ ∃ bytes rest, s.host = .writeMsg bytes :: rest ∧ disturbs bytes s = true) := by
  rw [step_no_reset hr] at h
  obtain ⟨u, hu, ⟨-, rfl⟩ | ⟨m, rest, hm, hheld, h⟩ | ⟨hquiet, -, -⟩⟩ := coreStep_cases h
  · left
    obtain ⟨-, -, -, -, -, -, -, -, hdisturbed, -⟩ := controllerStep_frame u
    obtain rfl | rfl := hu <;> exact hdisturbed
  · have hn : neverHeld m (u.setHost rest) = true := by obtain rfl | rfl := hu <;> exact hheld hb
    have hsame : (u.setHost rest).disturbed = s.disturbed := by obtain rfl | rfl := hu <;> rfl
    obtain heq | ⟨hset, bytes, rfl, hd⟩ := performMove_disturbed hn h
    · exact .inl (heq.trans hsame)
    · refine .inr ⟨hset, bytes, rest, hm, ?_⟩
      obtain rfl | rfl := hu <;> exact hd
  · exact absurd hb (Bool.eq_false_iff.1 hquiet)

/-- A host that keeps its duty has no disturbing fill next. -/
theorem disturbs_of_hostKeepsDuty {s : State} {bytes : List Byte} {rest : List HostMove}
    (hduty : hostKeepsDuty s = true) (hh : s.host = .writeMsg bytes :: rest) : disturbs bytes s = false := by
  simpa [hostKeepsDuty, hh] using hduty

/-- Settles O54: a fill that disturbs frees what OUT holds of the HASH and sets the mark, nothing clears the mark, and a
marked HASH emits free bytes. -/
theorem disturbedHashOutputIsFree : Obligations.DisturbedHashOutputIsFree := by
  unfold Obligations.DisturbedHashOutputIsFree
  refine ⟨?_, ?_, ?_, ?_⟩
  · intro s bytes hb hbytes hmlen hfits
    have hd : disturbs bytes s = true := disturbs_iff.2 ⟨hb, not_or.2 ⟨hbytes, hmlen⟩⟩
    exact ⟨_, s.draws, fillMsg_disturbing hd hfits, rfl, rfl, rfl, rfl, memRead_fill s.msg bytes,
      memRead_fill_freeBytes s.out s.draws s.ocnt⟩
  · intro s bytes rest hr hb hh hfits
    exact ⟨_, _, s.draws + 1, _, memRead_fill s.msg bytes, memRead_fill_freeBytes s.out (s.draws + 1) s.ocnt,
      step_fill_while_busy hr hb hh hfits⟩
  · rintro s take hr hp hw hd rfl
    refine ⟨squeezeStep s, s.draws, ?_, squeezeStep_ocnt s, squeezeStep_done_iff hp, fun a => ?_⟩
    · rw [step_hostWaits hr (busy_iff.2 (.inr hp)) hw, controllerStep_squeeze hp]
    · rw [squeezeStep_out]
      exact memRead_emitBlock_disturbed hd a
  · intro s t hr hb hstep
    obtain heq | ⟨hset, bytes, rest, hh, hdisturbs⟩ := step_disturbed hr hb hstep
    · exact ⟨heq.trans, fun _ => heq⟩
    · refine ⟨fun _ => hset, fun hduty => ?_⟩
      exact absurd hdisturbs (Bool.eq_false_iff.1 (disturbs_of_hostKeepsDuty hduty hh))

end Machine
end Sys2Proof
end

section
/-! The command words (30_encoding.md R80 to R88): the fields of a word, and decoding both ways. A word of format N is told
apart from the rest by its class, which is 0. -/

namespace Sys2Proof

/-! ### Fields -/

@[simp] theorem classField_append (k : BitVec 3) (ir : BitVec 5) : classField (k ++ ir) = k :=
  BitVec.extractLsb'_append_eq_left

@[simp] theorem roundField_append (k : BitVec 3) (ir : BitVec 5) : roundField (k ++ ir) = ir :=
  BitVec.extractLsb'_append_eq_right

@[simp] theorem hashField_append (k : BitVec 5) (m : BitVec 3) : hashField (k ++ m) = k :=
  BitVec.extractLsb'_append_eq_left

@[simp] theorem modeField_append (k : BitVec 5) (m : BitVec 3) : modeField (k ++ m) = m :=
  BitVec.extractLsb'_append_eq_right

/-- A word is its two fields of format R. -/
theorem classField_append_roundField (c : Byte) : classField c ++ roundField c = c :=
  BitVec.extractLsb'_append_extractLsb'

/-- A word is its two fields of format M. -/
theorem hashField_append_modeField (c : Byte) : hashField c ++ modeField c = c :=
  BitVec.extractLsb'_append_extractLsb'

theorem classField_toNat (c : Byte) : (classField c).toNat = c.toNat / 32 := by
  have hc : c.toNat < 2 ^ 8 := c.isLt
  rw [classField, BitVec.extractLsb'_toNat, Nat.shiftRight_eq_div_pow]
  omega

theorem roundField_toNat (c : Byte) : (roundField c).toNat = c.toNat % 32 := by
  simp [roundField]

theorem hashField_toNat (c : Byte) : (hashField c).toNat = c.toNat / 8 := by
  have hc : c.toNat < 2 ^ 8 := c.isLt
  rw [hashField, BitVec.extractLsb'_toNat, Nat.shiftRight_eq_div_pow]
  omega

theorem modeField_toNat (c : Byte) : (modeField c).toNat = c.toNat % 8 := by
  simp [modeField]

/-- The words of format M are of class `100`. -/
theorem classField_of_hashField {c : Byte} (h : hashField c = 0b10000#5) : classField c = 0b100#3 := by
  have hc : c.toNat / 8 = 16 := by rw [← hashField_toNat, h]; rfl
  apply BitVec.eq_of_toNat_eq
  rw [classField_toNat]
  show c.toNat / 32 = 4
  omega

/-! ### Mode numbers -/

theorem modeOfNumber_modeNumber (m : Mode) : modeOfNumber (modeNumber m) = some m := by cases m <;> rfl

theorem modeNumber_of_modeOfNumber {n : BitVec 3} {m : Mode} (h : modeOfNumber n = some m) : modeNumber m = n := by
  decide +revert

/-- Mode numbers 6 and 7 are reserved (R85). -/
theorem modeOfNumber_isSome_iff (n : BitVec 3) : (modeOfNumber n).isSome = true ↔ n.toNat < 6 := by
  decide +revert

/-! ### Decoding an encoding -/

/-- Outside format N, decoding goes by the fields. -/
theorem decode_of_classField_ne_zero {c : Byte} (h : classField c ≠ 0) :
    decode c =
      if classField c = 0b001#3 then decodeRound .iota (roundField c)
      else if classField c = 0b010#3 then decodeRound .round (roundField c)
      else if hashField c = 0b10000#5 then decodeHash (modeField c)
      else .reserved .unassigned := by
  have hne : ∀ w : Byte, classField w = 0 → c ≠ w := by rintro w hw rfl; exact h hw
  unfold decode
  rw [if_neg (hne _ rfl), if_neg (hne _ rfl), if_neg (hne _ rfl), if_neg (hne _ rfl), if_neg (hne _ rfl),
    if_neg (hne _ rfl), if_neg (hne _ rfl), if_neg (hne _ rfl)]

theorem decode_iotaWord (ir : BitVec 5) : decode (0b001#3 ++ ir) = decodeRound .iota ir := by
  rw [decode_of_classField_ne_zero (by simp)]
  simp

theorem decode_roundWord (ir : BitVec 5) : decode (0b010#3 ++ ir) = decodeRound .round ir := by
  rw [decode_of_classField_ne_zero (by simp)]
  simp

theorem decode_hashWord (m : BitVec 3) : decode (0b10000#5 ++ m) = decodeHash m := by
  have hclass : classField (0b10000#5 ++ m) = 0b100#3 := classField_of_hashField (hashField_append _ m)
  rw [decode_of_classField_ne_zero (by simp [hclass])]
  simp [hclass]

theorem decode_encodeHash (m : Mode) : decode (encodeHash m) = .instr (hashInstr m) := by
  rw [encodeHash, decode_hashWord, decodeHash, modeOfNumber_modeNumber]

theorem decodeRound_legal {mk : BitVec 5 → Instr} {ir : BitVec 5} (h : legalRound ir = true) :
    decodeRound mk ir = .instr (mk ir) :=
  if_pos h

/-- Settles O2: a word of format N is compared whole, and one of format R or M carries its operand in a field. -/
theorem decodeOfEncode : Obligations.DecodeOfEncode := by
  unfold Obligations.DecodeOfEncode
  intro i hi
  cases i with
  | nop => rfl
  | clr => rfl
  | init => rfl
  | theta => rfl
  | rho => rfl
  | pi => rfl
  | chi => rfl
  | keccakf => rfl
  | iota ir => exact (decode_iotaWord ir).trans (decodeRound_legal hi)
  | round ir => exact (decode_roundWord ir).trans (decodeRound_legal hi)
  | hashSha3_224 => exact decode_encodeHash .sha3_224
  | hashSha3_256 => exact decode_encodeHash .sha3_256
  | hashSha3_384 => exact decode_encodeHash .sha3_384
  | hashSha3_512 => exact decode_encodeHash .sha3_512
  | hashShake128 => exact decode_encodeHash .shake128
  | hashShake256 => exact decode_encodeHash .shake256

/-- Settles O1: each word is decoded by evaluation. -/
theorem spotWordsDecode : Obligations.SpotWordsDecode := by
  unfold Obligations.SpotWordsDecode
  decide

/-! ### Encoding a decoding -/

open Machine (reservedWord)

/-- What a word may decode to: the well-formed command that it is the word of, and then it is no word of
60_exceptions.md R253; or nothing, and then it is one. -/
def MeaningOf (c : Byte) (d : Decoded) : Prop :=
  match d with
  | .instr i => i.wellFormed = true ∧ encode i = c ∧ reservedWord c = false
  | .reserved _ => reservedWord c = true

/-- One comparison with a word of format N. -/
theorem meaningOf_ite {c w : Byte} {i : Instr} {d : Decoded} (hw : MeaningOf w (.instr i))
    (hd : c ≠ w → MeaningOf c d) : MeaningOf c (if c = w then .instr i else d) := by
  split
  · next h => exact h ▸ hw
  · next h => exact hd h

/-- In the two classes of format R the reserved words are those with a round index of 24 to 31. -/
theorem reservedWord_formatR {c : Byte} (h : classField c = 0b001#3 ∨ classField c = 0b010#3) :
    reservedWord c = !legalRound (roundField c) := by
  have hclass : c.toNat / 32 = 1 ∨ c.toNat / 32 = 2 := by
    rw [← classField_toNat]
    exact h.imp (congrArg BitVec.toNat) (congrArg BitVec.toNat)
  rw [reservedWord, legalRound, roundField_toNat, ← decide_not, decide_eq_decide]
  omega

/-- In format M the reserved words are those with mode number 6 or 7. -/
theorem reservedWord_formatM {c : Byte} (h : hashField c = 0b10000#5) :
    reservedWord c = !(modeOfNumber (modeField c)).isSome := by
  have hfixed : c.toNat / 8 = 16 := by rw [← hashField_toNat, h]; rfl
  rw [Bool.eq_iff_iff, Bool.not_eq_true', Bool.eq_false_iff, ne_eq, modeOfNumber_isSome_iff, modeField_toNat,
    reservedWord, decide_eq_true_eq]
  omega

theorem meaningOf_decodeRound {c : Byte} {mk : BitVec 5 → Instr}
    (hwf : (mk (roundField c)).wellFormed = legalRound (roundField c)) (henc : encode (mk (roundField c)) = c)
    (hclass : classField c = 0b001#3 ∨ classField c = 0b010#3) : MeaningOf c (decodeRound mk (roundField c)) := by
  have hreserved := reservedWord_formatR hclass
  unfold decodeRound
  split
  · next h => exact ⟨hwf.trans h, henc, by simp [hreserved, h]⟩
  · next h => exact hreserved.trans (by simp [h])

theorem hashInstr_wellFormed (m : Mode) : (hashInstr m).wellFormed = true := by cases m <;> rfl

theorem encode_hashInstr (m : Mode) : encode (hashInstr m) = encodeHash m := by cases m <;> rfl

theorem meaningOf_decodeHash {c : Byte} (hfixed : hashField c = 0b10000#5) :
    MeaningOf c (decodeHash (modeField c)) := by
  have hreserved := reservedWord_formatM hfixed
  unfold decodeHash
  split
  · next m h =>
    have henc : encodeHash m = c := by
      rw [encodeHash, modeNumber_of_modeOfNumber h, ← hfixed, hashField_append_modeField]
    exact ⟨hashInstr_wellFormed m, (encode_hashInstr m).trans henc, by simp [hreserved, h]⟩
  · next h => exact hreserved.trans (by simp [h])

/-- A word of no class of R86 is in the list of R253. -/
theorem reservedWord_unassigned {c : Byte} (h00 : c ≠ 0x00#8) (h01 : c ≠ 0x01#8) (h02 : c ≠ 0x02#8)
    (h10 : c ≠ 0x10#8) (h11 : c ≠ 0x11#8) (h12 : c ≠ 0x12#8) (h13 : c ≠ 0x13#8) (h18 : c ≠ 0x18#8)
    (hiota : classField c ≠ 0b001#3) (hround : classField c ≠ 0b010#3) (hhash : hashField c ≠ 0b10000#5) :
    reservedWord c = true := by
  have hc : c.toNat < 256 := c.isLt
  rw [reservedWord, decide_eq_true_eq]
  simp only [ne_eq, ← BitVec.toNat_inj, BitVec.toNat_ofNat, classField_toNat, hashField_toNat] at *
  omega

/-- Every word has one meaning. -/
theorem meaningOf_decode (c : Byte) : MeaningOf c (decode c) := by
  unfold decode
  refine meaningOf_ite ⟨rfl, rfl, rfl⟩ fun h00 => meaningOf_ite ⟨rfl, rfl, rfl⟩ fun h01 =>
    meaningOf_ite ⟨rfl, rfl, rfl⟩ fun h02 => meaningOf_ite ⟨rfl, rfl, rfl⟩ fun h10 =>
    meaningOf_ite ⟨rfl, rfl, rfl⟩ fun h11 => meaningOf_ite ⟨rfl, rfl, rfl⟩ fun h12 =>
    meaningOf_ite ⟨rfl, rfl, rfl⟩ fun h13 => meaningOf_ite ⟨rfl, rfl, rfl⟩ fun h18 => ?_
  split
  · next hiota =>
    have henc : encode (.iota (roundField c)) = c := by rw [encode, ← hiota, classField_append_roundField]
    exact meaningOf_decodeRound rfl henc (.inl hiota)
  · next hiota =>
    split
    · next hround =>
      have henc : encode (.round (roundField c)) = c := by rw [encode, ← hround, classField_append_roundField]
      exact meaningOf_decodeRound rfl henc (.inr hround)
    · next hround =>
      split
      · next hhash => exact meaningOf_decodeHash hhash
      · next hhash => exact reservedWord_unassigned h00 h01 h02 h10 h11 h12 h13 h18 hiota hround hhash

/-- Settles O3: the meaning of a word says both what it decodes to and whether it is in the list. -/
theorem encodeOfDecode : Obligations.EncodeOfDecode := by
  unfold Obligations.EncodeOfDecode
  intro c
  have hmeaning := meaningOf_decode c
  cases hd : decode c with
  | instr i =>
    obtain ⟨hwf, henc, hlisted⟩ : MeaningOf c (.instr i) := hd ▸ hmeaning
    refine ⟨?_, by simp [hlisted]⟩
    rintro _ ⟨⟩
    exact ⟨hwf, henc⟩
  | reserved why =>
    have hlisted : MeaningOf c (.reserved why) := hd ▸ hmeaning
    exact ⟨nofun, iff_of_true ⟨why, rfl⟩ hlisted⟩

end Sys2Proof
end

section
/-! Commands run one after another (30_encoding.md R102), and a round index that names no round (R84). -/

namespace Sys2Proof.Machine

/-! ### A round index of 24 to 31 -/

theorem execReserved_ready {s : State} (hr : ready s) :
    execReserved s = .next { s with phase := .error, errcode := .illegalCommand } :=
  accept_ready _ hr

/-- Settles O6: such an index names no round, so both commands act as a reserved word. -/
theorem roundIndexAbove23IsReserved : Obligations.RoundIndexAbove23IsReserved := by
  unfold Obligations.RoundIndexAbove23IsReserved
  intro s ir hir hr
  have hnone : ¬ir.toNat < 24 := Nat.not_lt.2 hir
  exact ⟨(withRound_reserved iota s hnone).trans (execReserved_ready hr),
    (withRound_reserved keccakRound s hnone).trans (execReserved_ready hr)⟩

/-! ### Sequences of commands -/

theorem runCommands_cons {i : Instr} {s t : State} (rest : List Instr) (h : exec i s = .next t) :
    runCommands (i :: rest) s = runCommands rest t := by
  simp only [runCommands, h]

/-- A command on the lanes leaves PHASE IDLE, so the next command is accepted (41_permutation_steps.md R145). -/
theorem ready_onLanes (f : Lanes → Lanes) (s : State) : ready (onLanes f s) := .inl rfl

theorem exec_iota_ready {ir : BitVec 5} {s : State} (h : ir.toNat < 24) (hr : ready s) :
    exec (.iota ir) s = .next (onLanes (iota ⟨ir.toNat, h⟩) s) :=
  (withRound_legal iota s h).trans (accept_ready _ hr)

theorem exec_round_ready {ir : BitVec 5} {s : State} (h : ir.toNat < 24) (hr : ready s) :
    exec (.round ir) s = .next (onLanes (keccakRound ⟨ir.toNat, h⟩) s) :=
  (withRound_legal keccakRound s h).trans (accept_ready _ hr)

/-- The five sub-steps as commands are the round, on the whole state: each writes the lanes and PHASE only. -/
theorem runCommands_substeps {ir : BitVec 5} {s : State} (h : ir.toNat < 24) (hr : ready s) :
    runCommands [.theta, .rho, .pi, .chi, .iota ir] s = some (onLanes (keccakRound ⟨ir.toNat, h⟩) s) := by
  calc runCommands [.theta, .rho, .pi, .chi, .iota ir] s
    _ = runCommands [.rho, .pi, .chi, .iota ir] (onLanes theta s) := runCommands_cons _ (accept_ready _ hr)
    _ = runCommands [.pi, .chi, .iota ir] (onLanes (fun A => rho (theta A)) s) :=
      runCommands_cons _ (accept_ready _ (ready_onLanes theta s))
    _ = runCommands [.chi, .iota ir] (onLanes (fun A => pi (rho (theta A))) s) :=
      runCommands_cons _ (accept_ready _ (ready_onLanes (fun A => rho (theta A)) s))
    _ = runCommands [.iota ir] (onLanes (fun A => chi (pi (rho (theta A)))) s) :=
      runCommands_cons _ (accept_ready _ (ready_onLanes (fun A => pi (rho (theta A))) s))
    _ = some (onLanes (keccakRound ⟨ir.toNat, h⟩) s) :=
      runCommands_cons [] (exec_iota_ready h (ready_onLanes (fun A => chi (pi (rho (theta A)))) s))

theorem exec_round_index (r : Fin 24) {s : State} (hr : ready s) :
    exec (.round (BitVec.ofNat 5 r.val)) s = .next (onLanes (keccakRound r) s) := by
  have hval : (BitVec.ofNat 5 r.val).toNat = r.val := Nat.mod_eq_of_lt (Nat.lt_trans r.isLt (by decide))
  have hlt : (BitVec.ofNat 5 r.val).toNat < 24 := by rw [hval]; exact r.isLt
  have hindex : (⟨(BitVec.ofNat 5 r.val).toNat, hlt⟩ : Fin 24) = r := Fin.ext hval
  rw [exec_round_ready hlt hr, hindex]

/-- The 24 round indices as numbers. -/
theorem map_val_finRange_24 : (List.finRange 24).map Fin.val = List.range 24 := by decide

/-- ROUND commands one after another apply their rounds to the lanes in this order. -/
theorem runCommands_rounds (rs : List (Fin 24)) {s : State} (hr : ready s) :
    ∃ u, runCommands (rs.map fun r => .round (BitVec.ofNat 5 r.val)) s = some u ∧
      u.lanes = rs.foldl (fun A r => keccakRound r A) s.lanes := by
  induction rs generalizing s with
  | nil => exact ⟨s, rfl, rfl⟩
  | cons r rs ih =>
    rw [List.map_cons, runCommands_cons _ (exec_round_index r hr)]
    exact ih (ready_onLanes (keccakRound r) s)

theorem exec_keccakf_ready {s : State} (hr : ready s) : exec .keccakf s = .next ((permute s).setPhase .idle) :=
  accept_ready (fun t => (permute t).setPhase .idle) hr

/-- Settles O23: ROUND is its five sub-steps on the whole state, and KECCAKF folds the same 24 rounds over the lanes. -/
theorem commandEquivalences : Obligations.CommandEquivalences := by
  unfold Obligations.CommandEquivalences
  refine fun s hr => ⟨fun ir hir => ⟨_, exec_round_ready hir hr, runCommands_substeps hir hr⟩, ?_⟩
  obtain ⟨u, hrun, hlanes⟩ := runCommands_rounds (List.finRange 24) hr
  refine ⟨_, u, exec_keccakf_ready hr, ?_, ?_⟩
  · rw [← map_val_finRange_24, List.map_map]
    exact hrun
  · rw [permute_eq, hlanes]
    rfl

end Sys2Proof.Machine
end

section
/-! The host's accesses to the buffers within their sizes (30_encoding.md R91, 20_memory.md R51, R52, R62). -/

namespace Sys2Proof.Machine

/-- Settles O51: a quiescent fill disturbs nothing, and is a run of writes from address 0. -/
theorem hostFillsMessage : Obligations.HostFillsMessage := by
  unfold Obligations.HostFillsMessage
  intro s bytes rest hr hb hh hfits
  have hharmless : disturbs bytes (s.setHost rest) = false :=
    Bool.eq_false_iff.2 fun hd => Bool.eq_false_iff.1 hb (disturbs_iff.1 hd).1
  exact ⟨_, (step_quiescent_move hr hb hh).trans (fillMsg_harmless hharmless hfits), memRead_fill s.msg bytes⟩

theorem readOutBytes_quiescent {n : Nat} {s : State} (hb : busy s = false)
    (hfits : Config.exceeds n s.cfg.maxOlen = false) :
    readOutBytes n s = .next (answer (.out ((List.range n).map (outByte s))) s) := by
  simp [readOutBytes, hfits, hb]

theorem readOutBytes_busy {n : Nat} {s : State} (hb : busy s = true)
    (hfits : Config.exceeds n s.cfg.maxOlen = false) :
    readOutBytes n s = .next ((answer (.out (freeBytes s.draws 0 n)) s).setDraws (s.draws + 1)) := by
  simp [readOutBytes, hfits, hb]

/-- A step with a read of OUT next while BUSY: the read, of free bytes of a second draw, or the controller's step. -/
theorem step_readOut_while_busy {s : State} {n : Nat} {rest : List HostMove} (hr : s.resets = 0)
    (hb : busy s = true) (hh : s.host = .readOut n :: rest) (hfits : Config.exceeds n s.cfg.maxOlen = false) :
    step s =
      if Config.hostFirst s.draws then
        .next
          { s with
            host := rest, answers := .out (freeBytes (s.draws + 1) 0 n) :: s.answers, draws := s.draws + 2 }
      else .next (controllerStep { s with draws := s.draws + 1 }) := by
  have hread := readOutBytes_busy (s := (s.setDraws (s.draws + 1)).setHost rest) hb hfits
  rw [step_unheld hr hb hh (by simp [neverHeld, hfits]), performMove, hread]
  rfl

/-- Settles O52: a quiescent read records the bytes of OUT, and one while BUSY free bytes of one draw. -/
theorem readOutReturnsResult : Obligations.ReadOutReturnsResult := by
  unfold Obligations.ReadOutReturnsResult
  refine fun s n rest hr hh hfits => ⟨fun hb => ?_, fun hb => ?_⟩
  · have hstep : step s = .next (answer (.out ((List.range n).map (outByte s))) (s.setHost rest)) :=
      (step_quiescent_move hr hb hh).trans (readOutBytes_quiescent hb hfits)
    refine ⟨(List.range n).map (outByte s), by simp, fun a ha => by simp [ha, outByte], ?_, hstep⟩
    rintro hdone rfl
    exact if_pos hdone
  · refine ⟨freeBytes (s.draws + 1) 0 n, s.draws + 1, s.draws + 2, length_freeBytes .., fun a ha => ?_,
      step_readOut_while_busy hr hb hh hfits⟩
    rw [getElem?_freeBytes _ _ ha, Nat.zero_add]

end Sys2Proof.Machine
end

section
/-! Lane rotation as a move of bits and as arithmetic, and the controller's sequencing as a function of the control
registers alone (40_lane_primitives.md R110, R116). -/

namespace Sys2Proof.Machine

/-! ### Lane rotation -/

/-- With `s = n mod 64`: a bit below `64 - s` moves up by `s`, and the bits from there on come round to the bottom. -/
theorem rotl64_getLsbD (v : Lane) (n : Nat) {i : Nat} (hi : i < 64) :
    (rotl64 v n).getLsbD ((i + n) % 64) = v.getLsbD i := by
  rw [rotl64, BitVec.getLsbD_rotateLeft]
  have hs : n % 64 < 64 := Nat.mod_lt n (by decide)
  by_cases hwrap : i + n % 64 < 64
  · have hto : (i + n) % 64 = i + n % 64 := by omega
    have hhigh : ¬i + n % 64 < n % 64 := by omega
    have hfrom : i + n % 64 - n % 64 = i := by omega
    simp only [hto, hhigh, hwrap, hfrom, decide_false, decide_true, cond_false, Bool.true_and]
  · have hto : (i + n) % 64 = i + n % 64 - 64 := by omega
    have hlow : i + n % 64 - 64 < n % 64 := by omega
    have hfrom : 64 - n % 64 + (i + n % 64 - 64) = i := by omega
    simp only [hto, hlow, hfrom, decide_true, cond_true]

/-- The bits that a rotation keeps in the word lie above the `s` bits that it brings round, so their union is a sum. -/
theorem rotl64_toNat (v : Lane) (n : Nat) :
    (rotl64 v n).toNat = v.toNat * 2 ^ (n % 64) % 2 ^ 64 + v.toNat / 2 ^ (64 - n % 64) := by
  have hsplit : 2 ^ 64 = 2 ^ (64 - n % 64) * 2 ^ (n % 64) := by
    have hs : n % 64 < 64 := Nat.mod_lt n (by decide)
    rw [← Nat.pow_add, Nat.sub_add_cancel (Nat.le_of_lt hs)]
  have hkept : v.toNat * 2 ^ (n % 64) % 2 ^ 64 = (v.toNat % 2 ^ (64 - n % 64)) <<< (n % 64) := by
    rw [hsplit, Nat.mul_mod_mul_right, Nat.shiftLeft_eq]
  have hround : v.toNat / 2 ^ (64 - n % 64) < 2 ^ (n % 64) :=
    Nat.div_lt_of_lt_mul (hsplit ▸ v.isLt)
  rw [rotl64, BitVec.toNat_rotateLeft, Nat.shiftLeft_eq, Nat.shiftRight_eq_div_pow, hkept,
    Nat.shiftLeft_add_eq_or_of_lt hround]

theorem rotl64_of_mod_eq_zero {v : Lane} {n : Nat} (hn : n % 64 = 0) : rotl64 v n = v := by
  apply BitVec.eq_of_toNat_eq
  have hv : v.toNat < 2 ^ 64 := v.isLt
  rw [rotl64_toNat, hn]
  omega

/-- Settles O13: where each bit goes, and the sum, which holds for a rotation by 0 too. -/
theorem rotationMovesBits : Obligations.RotationMovesBits := by
  unfold Obligations.RotationMovesBits
  exact fun v n => ⟨fun _ => rotl64_getLsbD v n, rotl64_of_mod_eq_zero, fun _ => rotl64_toNat v n⟩

/-! ### The controller's sequencing -/

theorem absorbStep_phase {s : State} (hp : s.phase = .absorb) :
    (absorbStep s).phase = if s.blk + 1 = blockCount s.mode s.mlen then .squeeze else .absorb := by
  split
  · rw [absorbStep_last ‹_›]; rfl
  · rw [absorbStep_more ‹_›]; exact hp

theorem absorbStep_ocnt (s : State) : (absorbStep s).ocnt = s.ocnt := by
  by_cases h : s.blk + 1 = blockCount s.mode s.mlen
  · rw [absorbStep_last h]; rfl
  · rw [absorbStep_more h]; rfl

/-- BLK counts as long as the machine stays in ABSORB (43_sponge_controller.md R203). -/
theorem absorbStep_blk {s : State} (hp : s.phase = .absorb) (hstay : (absorbStep s).phase = .absorb) :
    (absorbStep s).blk = s.blk + 1 := by
  by_cases h : s.blk + 1 = blockCount s.mode s.mlen
  · simp [absorbStep_phase hp, h] at hstay
  · rw [absorbStep_more h]; rfl

theorem squeezeStep_phase {s : State} (hp : s.phase = .squeeze) :
    (squeezeStep s).phase = if s.ocnt + takeCount s = s.olen then .done else .squeeze := by
  split
  · rw [squeezeStep_last ‹_›]; rfl
  · rw [squeezeStep_more ‹_›]; exact hp

theorem controllerStep_quiescent {s : State} (hb : busy s = false) : controllerStep s = s := by
  cases hp : s.phase with
  | absorb | squeeze => simp [busy, hp] at hb
  | idle | done | error => simp [controllerStep, hp]

/-- Settles O44: by the phase, each step's PHASE, OCNT and BLK are functions of the control registers. -/
theorem controlIndependentOfData : Obligations.ControlIndependentOfData := by
  unfold Obligations.ControlIndependentOfData
  intro s s' hphase hmode hmlen holen hocnt hblk
  cases hp : s.phase with
  | absorb =>
    have hp' : s'.phase = .absorb := hphase ▸ hp
    rw [controllerStep_absorb hp, controllerStep_absorb hp']
    have hnext : (absorbStep s).phase = (absorbStep s').phase := by
      rw [absorbStep_phase hp, absorbStep_phase hp', hblk, hmode, hmlen]
    refine ⟨hnext, by rw [absorbStep_ocnt, absorbStep_ocnt, hocnt], fun hstay => ?_⟩
    rw [absorbStep_blk hp hstay, absorbStep_blk hp' (hnext ▸ hstay), hblk]
  | squeeze =>
    have hp' : s'.phase = .squeeze := hphase ▸ hp
    have htake : takeCount s = takeCount s' := by simp only [takeCount, hmode, holen, hocnt]
    rw [controllerStep_squeeze hp, controllerStep_squeeze hp']
    refine ⟨?_, by rw [squeezeStep_ocnt, squeezeStep_ocnt, hocnt, htake], fun hstay => ?_⟩
    · rw [squeezeStep_phase hp, squeezeStep_phase hp', hocnt, htake, holen]
    · rw [squeezeStep_phase hp] at hstay
      split at hstay <;> cases hstay
  | idle | done | error =>
    have hb : busy s = false := by simp [busy, hp]
    have hb' : busy s' = false := by simp [busy, ← hphase, hp]
    rw [controllerStep_quiescent hb, controllerStep_quiescent hb']
    exact ⟨hphase, hocnt, fun _ => hblk⟩

end Sys2Proof.Machine
end

section
/-! The sub-steps of the permutation as commands (41_permutation_steps.md R130 to R146). A command on the lanes writes them
and PHASE, and the lemmas of Laws/Permutation say which lane each sub-step puts where. -/

namespace Sys2Proof.Machine

/-! ### The sub-steps in IDLE and DONE -/

/-- Where a command is performed, its transition on the lanes is the whole of its effect (R145). -/
theorem accept_onLanes_ready (f : Lanes → Lanes) {s : State} (hr : ready s) :
    accept (onLanes f) s = .next { s with lanes := f s.lanes, phase := .idle } :=
  accept_ready (onLanes f) hr

/-- Settles O14: the parities and their combination are those of the state before. -/
theorem thetaMixesColumns : Obligations.ThetaMixesColumns := by
  unfold Obligations.ThetaMixesColumns
  exact ⟨rfl, fun s hr => ⟨theta s.lanes, columnParity s.lanes, thetaD s.lanes, fun _ => rfl, fun _ => rfl,
    theta_lane s.lanes, accept_onLanes_ready theta hr⟩⟩

/-- Settles O15: the offsets by linear index, and the rotation lane by lane. -/
theorem rhoRotatesLanes : Obligations.RhoRotatesLanes := by
  unfold Obligations.RhoRotatesLanes
  exact ⟨rfl, by decide, fun s hr => ⟨rho s.lanes, rho_lane s.lanes, accept_onLanes_ready rho hr⟩⟩

/-- The gather of R137 undoes the move of R136: the row moved to gives back the column moved from. -/
theorem pi_source_of_target : ∀ x y : Fin 5, y + 3 * (2 * x + 3 * y) = x := by decide

theorem pi_lane_target (A : Lanes) (x y : Fin 5) : (pi A).lane y (2 * x + 3 * y) = A.lane x y := by
  rw [pi_lane, pi_source_of_target]

/-- Settles O17: the model gathers each lane from its source, which is the place that moves there. -/
theorem piMovesLanes : Obligations.PiMovesLanes := by
  unfold Obligations.PiMovesLanes
  exact ⟨rfl, fun s hr => ⟨pi s.lanes, pi_lane_target s.lanes, accept_onLanes_ready pi hr⟩⟩

/-- Settles O18: both neighbours in the row are read from the state before. -/
theorem chiMixesRows : Obligations.ChiMixesRows := by
  unfold Obligations.ChiMixesRows
  exact ⟨rfl, fun s hr => ⟨chi s.lanes, chi_lane s.lanes, accept_onLanes_ready chi hr⟩⟩

/-- The word of format R as a number: the class above the five bits of the round index (30_encoding.md R82). -/
theorem toNat_class_append_round (k : BitVec 3) (ir : BitVec 5) : (k ++ ir).toNat = 32 * k.toNat + ir.toNat := by
  have hclass : k.toNat = (k ++ ir).toNat / 32 := by rw [← classField_toNat, classField_append]
  have hround : ir.toNat = (k ++ ir).toNat % 32 := by rw [← roundField_toNat, roundField_append]
  omega

/-- Settles O19: the origin takes the round constant, and every other lane stays. -/
theorem iotaAddsRoundConstant : Obligations.IotaAddsRoundConstant := by
  unfold Obligations.IotaAddsRoundConstant
  exact fun ir h => ⟨toNat_class_append_round 0b001#3 ir, fun s hr =>
    ⟨iota ⟨ir.toNat, h⟩ s.lanes, iota_lane_origin _ _, fun _ _ hother => iota_lane_other _ _ hother,
      exec_iota_ready h hr⟩⟩

/-! ### The permutation commands by phase -/

/-- `t` is IDLE and has the lengths, ERRCODE, the buffers, MODE and BLK of `s`: what R145 promises of a permutation command
that is performed. -/
def IdleWithSameControl (s t : State) : Prop :=
  t.phase = .idle ∧ t.mlen = s.mlen ∧ t.olen = s.olen ∧ t.ocnt = s.ocnt ∧ t.errcode = s.errcode ∧ t.msg = s.msg ∧
    t.out = s.out ∧ t.mode = s.mode ∧ t.blk = s.blk

theorem idleWithSameControl_onLanes (f : Lanes → Lanes) (s : State) : IdleWithSameControl s (onLanes f s) := by
  simp [IdleWithSameControl, onLanes]

theorem idleWithSameControl_permute (s : State) : IdleWithSameControl s ((permute s).setPhase .idle) := by
  simp [IdleWithSameControl, permute_eq]

theorem lt_of_legalRound {ir : BitVec 5} (h : legalRound ir = true) : ir.toNat < 24 :=
  Nat.lt_succ_of_le (of_decide_eq_true h)

/-- Every permutation command with a legal index is accepted like any other, with a transition that keeps R145. -/
theorem exec_permutation_eq_accept {i : Instr} (hwf : i.wellFormed = true)
    (hi : i ∈ [.theta, .rho, .pi, .chi, .keccakf] ∨ (∃ ir, i = .iota ir) ∨ ∃ ir, i = .round ir) :
    ∃ effect, (∀ s, exec i s = accept effect s) ∧ ∀ s, IdleWithSameControl s (effect s) := by
  obtain hi | ⟨ir, rfl⟩ | ⟨ir, rfl⟩ := hi
  · simp only [List.mem_cons, List.not_mem_nil, or_false] at hi
    obtain rfl | rfl | rfl | rfl | rfl := hi
    · exact ⟨_, fun _ => rfl, idleWithSameControl_onLanes theta⟩
    · exact ⟨_, fun _ => rfl, idleWithSameControl_onLanes rho⟩
    · exact ⟨_, fun _ => rfl, idleWithSameControl_onLanes pi⟩
    · exact ⟨_, fun _ => rfl, idleWithSameControl_onLanes chi⟩
    · exact ⟨_, fun _ => rfl, idleWithSameControl_permute⟩
  · exact ⟨_, fun s => withRound_legal iota s (lt_of_legalRound hwf), idleWithSameControl_onLanes _⟩
  · exact ⟨_, fun s => withRound_legal keccakRound s (lt_of_legalRound hwf), idleWithSameControl_onLanes _⟩

/-- Settles O25: IDLE and DONE perform the transition, and every other phase leaves the state as it is. -/
theorem permutationCommandsByPhase : Obligations.PermutationCommandsByPhase := by
  unfold Obligations.PermutationCommandsByPhase
  intro i s hwf hi
  obtain ⟨effect, hexec, hkeeps⟩ := exec_permutation_eq_accept hwf hi
  rw [hexec]
  exact ⟨fun hr => ⟨effect s, accept_ready effect hr, hkeeps s⟩, accept_not_ready effect⟩

/-! ### The walk of the rho offsets -/

/-- The offset at each place of the walk is the triangular number of its step (R135). -/
theorem rhoOffset_walk : ∀ t : Fin 24,
    rhoOffset (walk t.val).1 (walk t.val).2 = ((t.val + 1) * (t.val + 2) / 2) % 64 := by decide

/-- Settles O16: the walk meets 24 places, and with the origin they are all 25. -/
theorem rhoOffsetsFollowWalk : Obligations.RhoOffsetsFollowWalk := by
  unfold Obligations.RhoOffsetsFollowWalk
  exact ⟨rfl, rhoOffset_walk, by decide, by decide⟩

end Sys2Proof.Machine
end

section
/-! ROUND and KECCAKF as commands, the round constants, and the permutation as a bijection on the lanes
(42_round_permute.md R160 to R167).

Each sub-step is a bijection on the lanes. Only theta needs an argument: it takes the column parities `C` to
`C[x] ^ C[x+4] ^ ROTL64(C[x+1], 1)`. A map of that shape composed with itself has the same shape, with both distances
and the rotation doubled, because everything else cancels in pairs. Six doublings make the rotation one by 64, which
moves nothing, and what is left is undone by a map of the same shape. -/

namespace Sys2Proof.Machine

/-! ### The commands -/

/-- Settles O21: the word carries the index, and the transition on the lanes is the round. -/
theorem roundAppliesFiveSubsteps : Obligations.RoundAppliesFiveSubsteps := by
  unfold Obligations.RoundAppliesFiveSubsteps
  exact fun ir h => ⟨toNat_class_append_round 0b010#3 ir, fun _ hr => exec_round_ready h hr⟩

/-- Settles O22: the permutation of the state is `keccakF` on the lanes, and RND takes a free value. -/
theorem keccakfAppliesAllRounds : Obligations.KeccakfAppliesAllRounds := by
  unfold Obligations.KeccakfAppliesAllRounds
  refine ⟨rfl, fun s hr => ⟨Config.freeRnd s.draws, s.draws + 1, ?_⟩⟩
  rw [exec_keccakf_ready hr, permute_eq]
  rfl

/-! ### The round constants -/

/-- The seven bits of each constant that the register gives. -/
theorem roundConstant_lfsr_bit : ∀ (ir : Fin 24) (j : Fin 7),
    (roundConstant ir).getLsbD (2 ^ j.val - 1) = rcBit (j.val + 7 * ir.val) := by decide

/-- No constant has a bit anywhere else. -/
theorem roundConstant_other_bit : ∀ (ir : Fin 24) (b : Fin 64), b.val ∉ [0, 1, 3, 7, 15, 31, 63] →
    (roundConstant ir).getLsbD b.val = false := by decide

/-- Settles O20: both halves are closed facts about the table of R161. -/
theorem roundConstantsFollowLfsr : Obligations.RoundConstantsFollowLfsr := by
  unfold Obligations.RoundConstantsFollowLfsr
  exact fun ir => ⟨roundConstant_lfsr_bit ir, roundConstant_other_bit ir⟩

/-! ### Lanes under XOR and rotation -/

theorem lane_xor_left_comm (u v w : Lane) : u ^^^ (v ^^^ w) = v ^^^ (u ^^^ w) := by
  rw [← BitVec.xor_assoc, BitVec.xor_comm u v, BitVec.xor_assoc]

theorem lane_xor_xor_cancel_left (v w : Lane) : v ^^^ (v ^^^ w) = w := by
  rw [← BitVec.xor_assoc, BitVec.xor_self, BitVec.zero_xor]

/-- A rotation by `n` moves bits to every place, so a lane is known from its bits at those places. -/
theorem lane_ext_rotated (n : Nat) {v w : Lane}
    (h : ∀ i, i < 64 → v.getLsbD ((i + n) % 64) = w.getLsbD ((i + n) % 64)) : v = w := by
  apply BitVec.eq_of_getLsbD_eq
  intro j hj
  have hfrom : ((j + (64 - n % 64)) % 64 + n) % 64 = j := by omega
  rw [← hfrom]
  exact h _ (Nat.mod_lt _ (by decide))

theorem rotl64_xor (v w : Lane) (n : Nat) : rotl64 (v ^^^ w) n = rotl64 v n ^^^ rotl64 w n :=
  lane_ext_rotated n fun _ hi => by simp only [BitVec.getLsbD_xor, rotl64_getLsbD _ _ hi]

theorem rotl64_rotl64 (v : Lane) (m n : Nat) : rotl64 (rotl64 v m) n = rotl64 v (m + n) :=
  lane_ext_rotated (m + n) fun i hi => by
    have hstep : (i + (m + n)) % 64 = ((i + m) % 64 + n) % 64 := by omega
    rw [rotl64_getLsbD v (m + n) hi, hstep, rotl64_getLsbD _ n (Nat.mod_lt _ (by decide)), rotl64_getLsbD v m hi]

/-- `63 * n` more places make it a multiple of 64. -/
theorem rotl64_undone (v : Lane) (n : Nat) : rotl64 (rotl64 v n) (63 * n) = v := by
  have hturns : (n + 63 * n) % 64 = 0 := by omega
  rw [rotl64_rotl64, rotl64_of_mod_eq_zero hturns]

theorem rotl64_reached (v : Lane) (n : Nat) : rotl64 (rotl64 v (63 * n)) n = v := by
  have hturns : (63 * n + n) % 64 = 0 := by omega
  rw [rotl64_rotl64, rotl64_of_mod_eq_zero hturns]

/-! ### Bijections -/

section
variable {α : Type}

/-- What R167 says of the permutation: no two values meet, and every value is reached. -/
def IsBijection (f : α → α) : Prop := Function.Injective f ∧ Function.Surjective f

theorem IsBijection.of_inverse {f : α → α} (g : α → α) (hleft : ∀ a, g (f a) = a) (hright : ∀ b, f (g b) = b) :
    IsBijection f :=
  ⟨fun a a' h => by rw [← hleft a, ← hleft a', h], fun b => ⟨g b, hright b⟩⟩

theorem IsBijection.comp {f g : α → α} (hg : IsBijection g) (hf : IsBijection f) : IsBijection fun a => g (f a) :=
  ⟨hg.1.comp hf.1, hg.2.comp hf.2⟩

theorem IsBijection.of_twice {f : α → α} (h : IsBijection fun a => f (f a)) : IsBijection f := by
  obtain ⟨hinj, hsurj⟩ := h
  refine ⟨fun a a' heq => hinj (congrArg f heq), fun b => ?_⟩
  obtain ⟨a, ha⟩ := hsurj b
  exact ⟨f a, ha⟩

theorem IsBijection.foldl {β : Type} {f : β → α → α} (hf : ∀ b, IsBijection (f b)) (bs : List β) :
    IsBijection fun a => bs.foldl (fun a b => f b a) a := by
  induction bs with
  | nil => exact .of_inverse id (fun _ => rfl) fun _ => rfl
  | cons b bs ih => exact ih.comp (hf b)

end

/-! ### Theta -/

theorem coordinate_add_assoc : ∀ x d e : Fin 5, x + d + e = x + (d + e) := by decide

theorem coordinate_add_right_comm : ∀ x d e : Fin 5, x + d + e = x + e + d := by decide

/-- Each lane of a plane with the lane `d` columns on, and with the lane `e` columns on rotated by `n`. -/
def mixColumns (d e : Fin 5) (n : Nat) (C : Fin 5 → Lane) : Fin 5 → Lane :=
  fun x => C x ^^^ C (x + d) ^^^ rotl64 (C (x + e)) n

/-- `D` of theta is what its mixing adds to a parity (R130). -/
theorem mixColumns_columnParity (A : Lanes) (x : Fin 5) :
    mixColumns 4 1 1 (columnParity A) x = columnParity A x ^^^ thetaD A x :=
  BitVec.xor_assoc ..

/-- One lane added to all five lanes of a column, an odd number, is added to their parity once. -/
theorem columnParity_of_lane_xor {A B : Lanes} {x : Fin 5} {v : Lane} (h : ∀ y, A.lane x y = B.lane x y ^^^ v) :
    columnParity A x = columnParity B x ^^^ v := by
  simp only [columnParity, h, BitVec.xor_assoc, lane_xor_left_comm, lane_xor_xor_cancel_left]

theorem columnParity_theta (A : Lanes) : columnParity (theta A) = mixColumns 4 1 1 (columnParity A) := by
  funext x
  rw [mixColumns_columnParity]
  exact columnParity_of_lane_xor (theta_lane A x)

/-- The cross terms meet in pairs, and the squares remain. -/
theorem mixColumns_mixColumns (d e : Fin 5) (n : Nat) (C : Fin 5 → Lane) :
    mixColumns d e n (mixColumns d e n C) = mixColumns (d + d) (e + e) (n + n) C := by
  funext x
  simp only [mixColumns, rotl64_xor, rotl64_rotl64, coordinate_add_right_comm x e d, ← coordinate_add_assoc]
  simp only [BitVec.xor_assoc, lane_xor_left_comm, lane_xor_xor_cancel_left]

theorem mixColumns_bijection_of_double {d e : Fin 5} {n : Nat}
    (h : IsBijection (mixColumns (d + d) (e + e) (n + n))) : IsBijection (mixColumns d e n) :=
  .of_twice <| by simpa only [mixColumns_mixColumns] using h

/-- Rotations by 64 are none, so these are sums of three lanes, and together they leave one. -/
theorem mixColumns_whole_turn_undone (C : Fin 5 → Lane) : mixColumns 2 3 64 (mixColumns 1 4 64 C) = C := by
  funext x
  simp only [mixColumns, rotl64_of_mod_eq_zero (n := 64) rfl, coordinate_add_assoc, Fin.reduceAdd]
  simp only [BitVec.xor_assoc, BitVec.xor_comm, lane_xor_left_comm, lane_xor_xor_cancel_left, BitVec.xor_self,
    BitVec.xor_zero]

theorem mixColumns_whole_turn_reached (C : Fin 5 → Lane) : mixColumns 1 4 64 (mixColumns 2 3 64 C) = C := by
  funext x
  simp only [mixColumns, rotl64_of_mod_eq_zero (n := 64) rfl, coordinate_add_assoc, Fin.reduceAdd]
  simp only [BitVec.xor_assoc, BitVec.xor_comm, lane_xor_left_comm, lane_xor_xor_cancel_left, BitVec.xor_self,
    BitVec.xor_zero]

/-- The distances are numbers mod 5, so doubling takes 4 and 1 to 3 and 2, then to 1 and 4, and so on. -/
theorem mixColumns_bijection : IsBijection (mixColumns 4 1 1) := by
  have h64 : IsBijection (mixColumns 1 4 64) := .of_inverse _ mixColumns_whole_turn_undone mixColumns_whole_turn_reached
  have h32 : IsBijection (mixColumns 3 2 32) := mixColumns_bijection_of_double h64
  have h16 : IsBijection (mixColumns 4 1 16) := mixColumns_bijection_of_double h32
  have h8 : IsBijection (mixColumns 2 3 8) := mixColumns_bijection_of_double h16
  have h4 : IsBijection (mixColumns 1 4 4) := mixColumns_bijection_of_double h8
  have h2 : IsBijection (mixColumns 3 2 2) := mixColumns_bijection_of_double h4
  exact mixColumns_bijection_of_double h2

theorem theta_injective : Function.Injective theta := by
  intro A B h
  have hC : columnParity A = columnParity B :=
    mixColumns_bijection.1 (by rw [← columnParity_theta, ← columnParity_theta, h])
  have hD : thetaD A = thetaD B := by
    funext x
    rw [thetaD, thetaD, hC]
  refine Lanes.ext_lane fun x y => (BitVec.xor_left_inj (thetaD A x)).1 ?_
  rw [← theta_lane, hD, ← theta_lane, h]

/-- The parities `C` that mix to those of `B` give the lanes before theta: `D` is `C` with the parity of `B`. -/
theorem theta_surjective : Function.Surjective theta := by
  intro B
  obtain ⟨C, hmix⟩ := mixColumns_bijection.2 (columnParity B)
  obtain ⟨A, hlane⟩ : ∃ A : Lanes, ∀ x y, A.lane x y = B.lane x y ^^^ (columnParity B x ^^^ C x) :=
    ⟨.ofFn _, Lanes.lane_ofFn _⟩
  have hC : columnParity A = C := funext fun x => by
    rw [columnParity_of_lane_xor (hlane x), lane_xor_xor_cancel_left]
  have hD (x : Fin 5) : columnParity B x ^^^ C x = thetaD A x := by
    rw [← hmix, ← hC, mixColumns_columnParity, BitVec.xor_comm, lane_xor_xor_cancel_left]
  refine ⟨A, Lanes.ext_lane fun x y => ?_⟩
  rw [theta_lane, hlane, hD, BitVec.xor_assoc, BitVec.xor_self, BitVec.xor_zero]

theorem theta_bijection : IsBijection theta := ⟨theta_injective, theta_surjective⟩

/-! ### The other sub-steps, each undone -/

def undoRho (A : Lanes) : Lanes := Lanes.ofFn fun x y => rotl64 (A.lane x y) (63 * rhoOffset x y)

theorem rho_bijection : IsBijection rho := by
  refine .of_inverse undoRho (fun A => Lanes.ext_lane fun x y => ?_) fun A => Lanes.ext_lane fun x y => ?_
  · rw [undoRho, Lanes.lane_ofFn, rho_lane, rotl64_undone]
  · rw [rho_lane, undoRho, Lanes.lane_ofFn, rotl64_reached]

/-- Each lane back from the place that R136 moves it to. -/
def undoPi (A : Lanes) : Lanes := Lanes.ofFn fun x y => A.lane y (2 * x + 3 * y)

/-- The move of R136 undoes the gather of R137. -/
theorem pi_target_of_source : ∀ x y : Fin 5, 2 * (x + 3 * y) + 3 * x = y := by decide

theorem pi_bijection : IsBijection pi := by
  refine .of_inverse undoPi (fun A => Lanes.ext_lane fun x y => ?_) fun A => Lanes.ext_lane fun x y => ?_
  · rw [undoPi, Lanes.lane_ofFn, pi_lane_target]
  · rw [pi_lane, undoPi, Lanes.lane_ofFn, pi_target_of_source]

/-- A row has five lanes, so the neighbours of R139 come round, and chi is undone by all five. -/
def undoChi (A : Lanes) : Lanes :=
  Lanes.ofFn fun x y =>
    A.lane x y ^^^ (~~~A.lane (x + 1) y &&& (A.lane (x + 2) y ^^^ (~~~A.lane (x + 3) y &&& A.lane (x + 4) y)))

theorem undoChi_lane (A : Lanes) (x y : Fin 5) :
    (undoChi A).lane x y =
      A.lane x y ^^^ (~~~A.lane (x + 1) y &&& (A.lane (x + 2) y ^^^ (~~~A.lane (x + 3) y &&& A.lane (x + 4) y))) :=
  Lanes.lane_ofFn _ x y

/-- Chi undone on one bit of a row. -/
theorem chi_bit_undone : ∀ a b c d e : Bool,
    ((a ^^ (!b && c)) ^^
      (!(b ^^ (!c && d)) && ((c ^^ (!d && e)) ^^ (!(d ^^ (!e && a)) && (e ^^ (!a && b)))))) = a := by decide

/-- Chi on one bit of a row after it was undone. -/
theorem chi_bit_reached : ∀ a b c d e : Bool,
    ((a ^^ (!b && (c ^^ (!d && e)))) ^^
      (!(b ^^ (!c && (d ^^ (!e && a)))) && (c ^^ (!d && (e ^^ (!a && b)))))) = a := by decide

theorem chi_bijection : IsBijection chi := by
  refine .of_inverse undoChi (fun A => Lanes.ext_lane fun x y => ?_) fun A => Lanes.ext_lane fun x y => ?_
  · simp only [undoChi_lane, chi_lane, coordinate_add_assoc, Fin.reduceAdd, Fin.add_zero]
    ext i hi
    simp only [BitVec.getElem_xor, BitVec.getElem_and, BitVec.getElem_not]
    exact chi_bit_undone ..
  · simp only [undoChi_lane, chi_lane, coordinate_add_assoc, Fin.reduceAdd, Fin.add_zero]
    ext i hi
    simp only [BitVec.getElem_xor, BitVec.getElem_and, BitVec.getElem_not]
    exact chi_bit_reached ..

theorem iota_iota (ir : Fin 24) (A : Lanes) : iota ir (iota ir A) = A := by
  refine Lanes.ext_lane fun x y => ?_
  by_cases horigin : x = 0 ∧ y = 0
  · obtain ⟨rfl, rfl⟩ := horigin
    rw [iota_lane_origin, iota_lane_origin, BitVec.xor_assoc, BitVec.xor_self, BitVec.xor_zero]
  · rw [iota_lane_other ir _ horigin, iota_lane_other ir A horigin]

theorem iota_bijection (ir : Fin 24) : IsBijection (iota ir) :=
  .of_inverse (iota ir) (iota_iota ir) (iota_iota ir)

/-! ### The round and the permutation -/

theorem keccakRound_bijection (ir : Fin 24) : IsBijection (keccakRound ir) :=
  (iota_bijection ir).comp <| chi_bijection.comp <| pi_bijection.comp <| rho_bijection.comp theta_bijection

/-- Settles O24: KeccakF is rounds one after another, and each round is a bijection because its sub-steps are. -/
theorem keccakFBijective : Obligations.KeccakFBijective := by
  unfold Obligations.KeccakFBijective
  obtain ⟨hinj, hsurj⟩ : IsBijection keccakF := .foldl keccakRound_bijection (List.finRange 24)
  exact ⟨fun _ _ h => hinj h, hsurj⟩

end Sys2Proof.Machine
end

section
/-! The mode records and the padding rule (43_sponge_controller.md R180 to R185). -/

namespace Sys2Proof.Machine

/-! ### Mode records -/

/-- Settles O28: the records are the table, row by row. -/
theorem modeRecords : Obligations.ModeRecords := by
  unfold Obligations.ModeRecords
  rfl

/-- Settles O29: checked on each record; the two SHAKE records fix no output length. -/
theorem modeRecordInvariants : Obligations.ModeRecordInvariants := by
  unfold Obligations.ModeRecordInvariants
  intro m
  refine ⟨by cases m <;> rfl, by cases m <;> rfl, fun f hf => ?_⟩
  cases m <;> cases hf <;> decide

/-! ### The padding region -/

/-- The padded message is a whole number of blocks (R184). -/
theorem add_padLength (m : Mode) (n : Nat) : n + padLength m n = rate m * blockCount m n := by
  have hmod : n % rate m < rate m := Nat.mod_lt n (rate_pos m)
  have hdiv : rate m * (n / rate m) + n % rate m = n := Nat.div_add_mod n (rate m)
  rw [padLength, blockCount, Nat.mul_add, Nat.mul_one]
  omega

theorem pad_of_one {m : Mode} {n : Nat} (hq : padLength m n = 1) : pad m n = [(params m).suffixByte ||| 0x80#8] :=
  if_pos hq

theorem pad_of_two_le {m : Mode} {n : Nat} (hq : 2 ≤ padLength m n) :
    pad m n = (params m).suffixByte :: (List.replicate (padLength m n - 2) 0x00#8 ++ [0x80#8]) :=
  if_neg (by omega)

/-- The padding region has one byte, or two at least (R184). -/
theorem padLength_one_or_two_le (m : Mode) (n : Nat) : padLength m n = 1 ∨ 2 ≤ padLength m n := by
  have := (padLength_bounds m n).1
  omega

@[simp] theorem length_pad (m : Mode) (n : Nat) : (pad m n).length = padLength m n := by
  obtain hq | hq := padLength_one_or_two_le m n
  · rw [pad_of_one hq, hq]; rfl
  · rw [pad_of_two_le hq]; simp; omega

theorem length_padded (m : Mode) (M : List Byte) :
    (M ++ pad m M.length).length = rate m * blockCount m M.length := by
  rw [List.length_append, length_pad, add_padLength]

/-- Settles O31: `pad` by the number of its bytes, and the blocks by their number. -/
theorem paddedMessageFillsBlocks : Obligations.PaddedMessageFillsBlocks := by
  unfold Obligations.PaddedMessageFillsBlocks
  intro m M
  have hlength : (pad m M.length).length = rate m - M.length % rate m := length_pad m M.length
  obtain ⟨hlow, hhigh⟩ := padLength_bounds m M.length
  exact ⟨pad_of_one, pad_of_two_le, hlength, hlength ▸ hlow, hlength ▸ hhigh, length_padded m M⟩

/-! ### The padding in bits -/

theorem length_suffixBits_le (m : Mode) : (params m).suffixBits.length ≤ 4 := by cases m <;> decide

/-- The first padding byte alone: suffix, 1, and zeros up to eight bits (R183). -/
theorem byteBits_suffixByte (m : Mode) :
    byteBits (params m).suffixByte =
      (params m).suffixBits ++ [true] ++ List.replicate (7 - (params m).suffixBits.length) false := by
  cases m <;> decide

/-- The first padding byte merged with the last (R184). -/
theorem byteBits_mergedByte (m : Mode) :
    byteBits ((params m).suffixByte ||| 0x80#8) =
      (params m).suffixBits ++ [true] ++ List.replicate (6 - (params m).suffixBits.length) false ++ [true] := by
  cases m <;> decide

theorem byteBits_zero : byteBits 0x00#8 = List.replicate 8 false := by decide

theorem byteBits_lastByte : byteBits 0x80#8 = List.replicate 7 false ++ [true] := by decide

/-- The padding in bits: all of its `8q` bits but the suffix and the two 1s are the 0s between them (R183). -/
theorem flatMap_byteBits_pad (m : Mode) (n : Nat) :
    (pad m n).flatMap byteBits =
      (params m).suffixBits ++ [true] ++
        List.replicate (8 * padLength m n - ((params m).suffixBits.length + 2)) false ++ [true] := by
  have hsuffix := length_suffixBits_le m
  obtain hq | hq := padLength_one_or_two_le m n
  · have hzeros : 8 * padLength m n - ((params m).suffixBits.length + 2) = 6 - (params m).suffixBits.length := by omega
    rw [pad_of_one hq, hzeros, ← byteBits_mergedByte]
    exact List.flatMap_singleton byteBits _
  · have hzeros : 8 * padLength m n - ((params m).suffixBits.length + 2) =
        (7 - (params m).suffixBits.length) + ((padLength m n - 2) * 8 + 7) := by omega
    rw [pad_of_two_le hq, hzeros, ← List.replicate_append_replicate, ← List.replicate_append_replicate,
      ← List.flatten_replicate_replicate]
    simp [List.flatMap_replicate, byteBits_suffixByte, byteBits_zero, byteBits_lastByte]

/-- Settles O30: with `j` zeros the padding has `8q` bits, which complete the last block. -/
theorem paddingBits : Obligations.PaddingBits := by
  unfold Obligations.PaddingBits
  intro m n
  refine ⟨_, flatMap_byteBits_pad m n, ?_, ?_⟩
  · have htotal : 8 * n + (params m).suffixBits.length + 1 +
        (8 * padLength m n - ((params m).suffixBits.length + 2)) + 1 = 8 * rate m * blockCount m n := by
      have := length_suffixBits_le m
      have := (padLength_bounds m n).1
      rw [Nat.mul_assoc, ← add_padLength]
      omega
    rw [htotal, Nat.mul_mod_right]
  · have := (padLength_bounds m n).2
    have := rate_pos m
    omega

/-! ### The padded message byte by byte -/

/-- Byte `j` of the padding: the first padding byte, the last, or a zero (R185). -/
theorem getElem?_pad {m : Mode} {n j : Nat} (hj : j < padLength m n) :
    (pad m n)[j]? =
      some ((if j = 0 then (params m).suffixByte else 0x00#8) |||
        (if j = padLength m n - 1 then 0x80#8 else 0x00#8)) := by
  obtain hq | hq := padLength_one_or_two_le m n
  · obtain rfl : j = 0 := by omega
    simp [pad_of_one hq, hq]
  · rw [pad_of_two_le hq]
    cases j with
    | zero =>
      have hfirst : ¬0 = padLength m n - 1 := by omega
      simp [hfirst]
    | succ k =>
      rw [List.getElem?_cons_succ, List.getElem?_append, List.length_replicate]
      by_cases hlast : k < padLength m n - 2
      · have hmiddle : ¬k + 1 = padLength m n - 1 := by omega
        simp [hlast, hmiddle]
      · have hend : k + 1 = padLength m n - 1 := by omega
        have hindex : k - (padLength m n - 2) = 0 := by omega
        rw [if_neg hlast, hindex, if_neg (Nat.succ_ne_zero k), if_pos hend]
        rfl

/-- The bytes of the padded message, whatever gives the message bytes (R185). -/
theorem getElem?_padded (m : Mode) (M : List Byte) {msg : Nat → Byte}
    (hmsg : ∀ a, a < M.length → M[a]? = some (msg a)) {i : Nat} (hi : i < rate m * blockCount m M.length) :
    (M ++ pad m M.length)[i]? = some (pByte msg m M.length i) := by
  unfold pByte
  split
  · rename_i hin
    rw [List.getElem?_append_left hin, hmsg i hin]
  · rw [List.getElem?_append_right (by omega)]
    rw [← add_padLength] at hi
    exact getElem?_pad (by omega)

/-- Settles O32: the bytes of the message itself, then those of the padding. -/
theorem pByteIsPaddedByte : Obligations.PByteIsPaddedByte := by
  unfold Obligations.PByteIsPaddedByte
  exact fun m M i => getElem?_padded m M fun a ha => by simp [List.getD, ha]

end Sys2Proof.Machine
end

section
/-! The commands of the Sponge Controller and its steps one by one: INIT, the start of a HASH, the absorb step and the
squeeze step (43_sponge_controller.md R190, R201, R203, R205, R206). -/

namespace Sys2Proof.Machine

/-! ### INIT and the start of a HASH -/

/-- Settles O12: an accepted INIT writes the lanes and PHASE, and any other is no change. -/
theorem initZeroesLanes : Obligations.InitZeroesLanes := by
  unfold Obligations.InitZeroesLanes
  exact ⟨rfl, fun s => ⟨fun hr => ⟨zeroLanes, accept_onLanes_ready (fun _ => zeroLanes) hr, zeroLanes_lane⟩,
    accept_not_ready (onLanes fun _ => zeroLanes)⟩⟩

theorem exec_hashInstr (m : Mode) (s : State) : exec (hashInstr m) s = accept (startHash m) s := by
  cases m <;> rfl

theorem contractBroken_eq_false_iff {m : Mode} {o : Nat} :
    contractBroken m o = false ↔ ∀ f, (params m).fixedOutput = some f → o = f := by
  unfold contractBroken
  cases (params m).fixedOutput <;> simp

/-- A HASH command that passes its checks leaves the state of R201. -/
theorem exec_hashInstr_passing {m : Mode} {s : State} (hr : ready s) (hcontract : contractBroken m s.olen = false)
    (hresource : resourceShort s = false) : exec (hashInstr m) s = .next (beginAbsorb m (s.setOcnt 0)) := by
  rw [exec_hashInstr, accept_ready _ hr, startHash, hcontract, hresource]
  rfl

/-- A HASH command after which PHASE is ABSORB has passed its checks, unless it was held. -/
theorem checked_of_exec_hashInstr {m : Mode} {s b : State} (hr : ready s) (h : exec (hashInstr m) s = .next b)
    (hp : b.phase = .absorb) : contractBroken m s.olen = false ∧ b = beginAbsorb m (s.setOcnt 0) := by
  rw [exec_hashInstr, accept_ready _ hr] at h
  cases h
  obtain ⟨-, h⟩ | ⟨-, -, h⟩ | ⟨hcontract, -, h⟩ := startHash_cases m s
  · rw [h] at hp; cases hp
  · rw [h] at hp; cases hp
  · exact ⟨hcontract, h⟩

/-- The word of a HASH command as a number: 0x80 and the mode number (30_encoding.md R83). -/
theorem encodeHash_toNat (m : Mode) : (encodeHash m).toNat = 0x80 + (modeNumber m).toNat := by
  cases m <;> rfl

/-- Settles O33: with both checks passed, the start is `beginAbsorb` with OCNT 0. -/
theorem hashStarts : Obligations.HashStarts := by
  unfold Obligations.HashStarts
  intro m s hr hfixed hmlen holen
  have hresource : resourceShort s = false := Bool.or_eq_false_iff.2 ⟨hmlen, holen⟩
  refine ⟨by rw [encode_hashInstr, encodeHash_toNat], zeroLanes, zeroLanes_lane, ?_⟩
  exact exec_hashInstr_passing hr (contractBroken_eq_false_iff.2 hfixed) hresource

/-! ### The absorb step -/

/-- In ABSORB, with every pending access held, the step is the absorb step. -/
theorem step_absorb {s : State} (hr : s.resets = 0) (hp : s.phase = .absorb) (hw : hostWaits s = true) :
    step s = .next (absorbStep s) := by
  rw [step_hostWaits hr (busy_iff.2 (.inl hp)) hw, controllerStep_absorb hp]

/-- Settles O36: the state before the permutation is the XOR of the next block, and BLK tells whether it is the last. -/
theorem absorbStepAbsorbsBlock : Obligations.AbsorbStepAbsorbsBlock := by
  unfold Obligations.AbsorbStepAbsorbsBlock
  intro s hr hp hw
  have hstep := step_absorb hr hp hw
  by_cases hlast : s.blk + 1 = blockCount s.mode s.mlen
  · refine ⟨xorBlock s.lanes (rate s.mode) (blockByte s), Config.freeRnd s.draws, s.draws + 2,
      Config.freeBlk (s.draws + 1), fun i hi => stateByte_xorBlock _ _ _ hi, fun _ => ?_, fun h => absurd hlast h⟩
    rw [hstep, absorbStep_last hlast]
    rfl
  · refine ⟨xorBlock s.lanes (rate s.mode) (blockByte s), Config.freeRnd s.draws, s.draws + 1, 0,
      fun i hi => stateByte_xorBlock _ _ _ hi, fun h => absurd h hlast, fun _ => ?_⟩
    rw [hstep, absorbStep_more hlast]
    rfl

/-! ### The squeeze step -/

/-- In SQUEEZE, with every pending access held, the step is the squeeze step. -/
theorem step_squeeze {s : State} (hr : s.resets = 0) (hp : s.phase = .squeeze) (hw : hostWaits s = true) :
    step s = .next (squeezeStep s) := by
  rw [step_hostWaits hr (busy_iff.2 (.inr hp)) hw, controllerStep_squeeze hp]

theorem getElem?_takeBytes (A : Lanes) {j n : Nat} (hj : j < n) : (takeBytes A n)[j]? = some (stateByte A j) := by
  simp [takeBytes, hj]

/-- A block emitted by an undisturbed HASH is the first bytes of the state. -/
theorem memRead_emitBlock_undisturbed {s : State} (hd : s.disturbed = false) (a : Nat) :
    memRead (emitBlock s).out a =
      if s.ocnt ≤ a ∧ a < s.ocnt + takeCount s then some (stateByte s.lanes (a - s.ocnt)) else memRead s.out a := by
  rw [memRead_emitBlock, emitted, hd]
  split
  · exact getElem?_takeBytes s.lanes (by omega)
  · rfl

/-- Settles O37: OUT is that of the emitted block, and OCNT tells whether it is the last. -/
theorem squeezeStepEmitsBlock : Obligations.SqueezeStepEmitsBlock := by
  unfold Obligations.SqueezeStepEmitsBlock
  rintro s take hr hp hw hd rfl
  have hstep := step_squeeze hr hp hw
  refine ⟨(emitBlock s).out, memRead_emitBlock_undisturbed hd, fun hlast => ?_, fun hmore => ?_⟩
  · refine ⟨freeLanes s.draws, Config.freeMode s.draws, s.draws + 1, ?_⟩
    rw [hstep, squeezeStep_last hlast]
    rfl
  · refine ⟨Config.freeRnd s.draws, s.draws + 1, ?_⟩
    rw [hstep, squeezeStep_more hmore]
    rfl

/-- A block of no bytes leaves OUT as it was (R206). -/
theorem emitBlock_out_of_takeCount_zero {s : State} (h : takeCount s = 0) : (emitBlock s).out = s.out := by
  have hnone : emitted s = [] := List.eq_nil_of_length_eq_zero ((length_emitted s).trans h)
  rw [emitBlock, hnone]
  rfl

/-- Settles O38: with OLEN 0 the block has no bytes, and OCNT is OLEN already. -/
theorem zeroLengthOutputWritesNothing : Obligations.ZeroLengthOutputWritesNothing := by
  unfold Obligations.ZeroLengthOutputWritesNothing
  intro s hr hp hw holen hocnt
  have htake : takeCount s = 0 := by simp [takeCount, holen]
  refine ⟨squeezeStep s, step_squeeze hr hp hw, ?_, ?_, ?_⟩
  · rw [squeezeStep_done_iff hp, hocnt, htake, holen]
  · rw [squeezeStep_ocnt, hocnt, htake]
  · rw [squeezeStep_out, emitBlock_out_of_takeCount_zero htake]

end Sys2Proof.Machine
end

section
/-! The output of the sponge as a function (43_sponge_controller.md R200, R208): byte `j` of it depends on the absorbed
state and `j` alone, so a longer output begins with every shorter one. -/

namespace Sys2Proof.Machine

/-- Byte `j` of the output squeezed from state `A` with rate `r`, however long the output (R208). -/
def squeezedByte (r : Nat) (A : Lanes) (j : Nat) : Byte := stateByte (keccakFTimes (j / r) A) (j % r)

/-- The bytes of the first block are those of the state itself. -/
theorem squeezedByte_first_block {r j : Nat} (A : Lanes) (hj : j < r) : squeezedByte r A j = stateByte A j := by
  rw [squeezedByte, Nat.div_eq_of_lt hj, Nat.mod_eq_of_lt hj, keccakFTimes]

/-- The bytes from the second block on are those squeezed from the permuted state. -/
theorem squeezedByte_next_block {r : Nat} (hr : 0 < r) (A : Lanes) (j : Nat) :
    squeezedByte r A (r + j) = squeezedByte r (keccakF A) j := by
  rw [squeezedByte, Nat.add_div_left j hr, Nat.add_mod_left, keccakFTimes, squeezedByte]

theorem takeBytes_eq_map_squeezedByte {r n : Nat} (A : Lanes) (hn : n ≤ r) :
    takeBytes A n = (List.range n).map (squeezedByte r A) := by
  refine List.map_congr_left fun j hj => ?_
  rw [squeezedByte_first_block A (Nat.lt_of_lt_of_le (List.mem_range.1 hj) hn)]

/-- With fuel enough for all blocks, squeezing gives the bytes of the closed form. -/
theorem squeezeBlocks_eq_map {r : Nat} (hr : 0 < r) (fuel owed : Nat) (A : Lanes) (hfuel : owed ≤ fuel * r) :
    squeezeBlocks fuel r owed A = (List.range owed).map (squeezedByte r A) := by
  induction fuel generalizing owed A with
  | zero =>
    obtain rfl : owed = 0 := by omega
    rfl
  | succ k ih =>
    rw [squeezeBlocks]
    by_cases hlast : owed ≤ r
    · rw [Nat.min_eq_right hlast, if_pos rfl, List.append_nil, takeBytes_eq_map_squeezedByte A hlast]
    · have hrest : owed - r ≤ k * r := by rw [Nat.succ_mul] at hfuel; omega
      rw [Nat.min_eq_left (by omega), if_neg (by omega), ih (owed - r) (keccakF A) hrest,
        takeBytes_eq_map_squeezedByte A (Nat.le_refl r)]
      calc (List.range r).map (squeezedByte r A) ++ (List.range (owed - r)).map (squeezedByte r (keccakF A))
        _ = (List.range (r + (owed - r))).map (squeezedByte r A) := by
          rw [List.range_add, List.map_append, List.map_map]
          exact congrArg _ (List.map_congr_left fun j _ => (squeezedByte_next_block hr A j).symm)
        _ = (List.range owed).map (squeezedByte r A) := by rw [Nat.add_sub_cancel' (by omega)]

/-- The sponge's output in closed form (R208). -/
theorem spongeOutput_eq_map (M : List Byte) (m : Mode) (o : Nat) :
    spongeOutput M m o = (List.range o).map (squeezedByte (rate m) (absorbed M m)) := by
  refine squeezeBlocks_eq_map (rate_pos m) _ o _ ?_
  have := Nat.lt_mul_of_div_lt (Nat.lt_succ_self (o / rate m)) (rate_pos m)
  exact Nat.le_of_lt this

theorem getElem?_spongeOutput (M : List Byte) (m : Mode) {o j : Nat} (hj : j < o) :
    (spongeOutput M m o)[j]? = some (squeezedByte (rate m) (absorbed M m) j) := by
  rw [spongeOutput_eq_map, List.getElem?_map, List.getElem?_range hj]
  rfl

/-- Settles O41: the closed form, read at `j`. -/
theorem outputByteClosedForm : Obligations.OutputByteClosedForm := by
  unfold Obligations.OutputByteClosedForm
  exact fun M m _ _ hj => getElem?_spongeOutput M m hj

/-- Settles O42: in the closed form the output length is only the number of bytes. -/
theorem shorterOutputIsPrefix : Obligations.ShorterOutputIsPrefix := by
  unfold Obligations.ShorterOutputIsPrefix
  intro M m n₁ n₂ h
  rw [spongeOutput_eq_map, spongeOutput_eq_map, ← List.map_take, List.take_range, Nat.min_eq_left (Nat.le_of_lt h)]

end Sys2Proof.Machine
end

section
/-! A whole HASH, from its start to DONE (43_sponge_controller.md R200, R207, R209). With no reset owed and no host
move pending, `n` steps of the machine are `n` steps of the controller. Those are followed through ABSORB and SQUEEZE:
after `k` absorb steps the lanes are those of the first `k` blocks of the padded message, and after `k` squeeze steps
OUT holds the first `k` blocks of the output in its closed form. -/

namespace Sys2Proof.Machine

/-! ### Steps of the machine and steps of the controller -/

/-- With no reset owed and no host move pending, the step is the controller's, which is none where it is quiescent. -/
theorem step_hostless {s : State} (hr : s.resets = 0) (hh : s.host = []) : step s = .next (controllerStep s) := by
  cases hb : busy s with
  | true => exact step_hostWaits hr hb (by simp [hostWaits, hh])
  | false => rw [step_quiescent_idle hr hb hh, controllerStep_quiescent hb]

/-- `n` steps of the controller. -/
def controllerSteps (n : Nat) (s : State) : State :=
  match n with
  | 0 => s
  | k + 1 => controllerSteps k (controllerStep s)

/-- One more step of the controller may come first or last. -/
theorem controllerSteps_succ (n : Nat) (s : State) :
    controllerSteps (n + 1) s = controllerStep (controllerSteps n s) := by
  induction n generalizing s with
  | zero => rfl
  | succ k ih => exact ih (controllerStep s)

theorem runSteps_hostless (n : Nat) {s : State} (hr : s.resets = 0) (hh : s.host = []) :
    runSteps n s = some (controllerSteps n s) := by
  induction n generalizing s with
  | zero => rfl
  | succ k ih =>
    obtain ⟨-, -, -, -, -, hhost, -, hresets, -⟩ := controllerStep_frame s
    rw [runSteps, step_hostless hr hh]
    exact ih (hresets.trans hr) (hhost.trans hh)

/-! ### The message, and the state after some of its blocks -/

@[simp] theorem length_message (s : State) : (message s).length = s.mlen := by simp [message]

theorem getElem?_message {s : State} {a : Nat} (ha : a < (message s).length) :
    (message s)[a]? = some (msgByte s a) := by
  rw [length_message] at ha
  simp [message, ha]

/-- The lanes after the first `k` blocks of the padded message (R200). -/
def absorbedBlocks (M : List Byte) (m : Mode) (k : Nat) : Lanes := absorbBlocks (rate m) (M ++ pad m M.length) k

theorem absorbedBlocks_zero (M : List Byte) (m : Mode) : absorbedBlocks M m 0 = zeroLanes := rfl

theorem absorbedBlocks_all (M : List Byte) (m : Mode) : absorbedBlocks M m (blockCount m M.length) = absorbed M m := rfl

theorem absorbBlocks_succ (r : Nat) (P : List Byte) (k : Nat) :
    absorbBlocks r P (k + 1) = keccakF (xorBlock (absorbBlocks r P k) r fun i => P.getD (k * r + i) 0x00#8) := by
  simp only [absorbBlocks, List.range_succ, List.foldl_append, List.foldl_cons, List.foldl_nil]

/-- A byte of a block that the padded message has is a byte of the padded message. -/
theorem block_index_lt {r k nb i : Nat} (hk : k < nb) (hi : i < r) : k * r + i < r * nb := by
  calc k * r + i
    _ < k * r + r := Nat.add_lt_add_left hi _
    _ = r * (k + 1) := by rw [Nat.mul_succ, Nat.mul_comm]
    _ ≤ r * nb := Nat.mul_le_mul_left r hk

/-- An absorb step takes the lanes from those of `BLK` blocks to those of one more (R203). -/
theorem absorbStep_lanes_absorbed {u : State} (hlanes : u.lanes = absorbedBlocks (message u) u.mode u.blk)
    (hblk : u.blk < blockCount u.mode u.mlen) :
    (absorbStep u).lanes = absorbedBlocks (message u) u.mode (u.blk + 1) := by
  rw [absorbStep_lanes, hlanes, absorbedBlocks, absorbedBlocks, absorbBlocks_succ]
  refine congrArg keccakF (xorBlock_congr fun i hi => ?_)
  have hlt : u.blk * rate u.mode + i < rate u.mode * blockCount u.mode (message u).length := by
    rw [length_message]; exact block_index_lt hblk hi
  rw [List.getD, getElem?_padded u.mode (message u) (fun _ => getElem?_message) hlt, length_message]
  rfl

/-! ### What the steps of the controller leave alone -/

/-- `u` has the message, the lengths, the error code and the mark of disturbance of `b`, which no step of the controller
writes. -/
structure SameRequest (b u : State) : Prop where
  mlen : u.mlen = b.mlen
  olen : u.olen = b.olen
  msg : u.msg = b.msg
  era : u.era = b.era
  errcode : u.errcode = b.errcode
  disturbed : u.disturbed = b.disturbed

theorem SameRequest.refl (b : State) : SameRequest b b := ⟨rfl, rfl, rfl, rfl, rfl, rfl⟩

theorem SameRequest.controllerStep {b u : State} (h : SameRequest b u) : SameRequest b (controllerStep u) := by
  obtain ⟨hmlen, holen, hmsg, herrcode, -, -, -, -, hdisturbed, hera⟩ := controllerStep_frame u
  exact ⟨hmlen.trans h.mlen, holen.trans h.olen, hmsg.trans h.msg, hera.trans h.era, herrcode.trans h.errcode,
    hdisturbed.trans h.disturbed⟩

theorem message_congr {s u : State} (hmlen : u.mlen = s.mlen) (hmsg : u.msg = s.msg) (hera : u.era = s.era) :
    message u = message s := by
  have hbyte : msgByte u = msgByte s := funext fun a => by rw [msgByte, msgByte, hmsg, hera]
  rw [message, message, hbyte, hmlen]

theorem SameRequest.message {b u : State} (h : SameRequest b u) : message u = message b :=
  message_congr h.mlen h.msg h.era

/-! ### ABSORB -/

/-- The state a HASH starts from, once its checks have passed (R201). -/
structure HashStarted (b : State) : Prop where
  phase : b.phase = .absorb
  blk : b.blk = 0
  lanes : b.lanes = zeroLanes
  ocnt : b.ocnt = 0
  undisturbed : b.disturbed = false

theorem hashStarted_beginAbsorb (m : Mode) (s : State) : HashStarted (beginAbsorb m (s.setOcnt 0)) :=
  ⟨rfl, rfl, rfl, rfl, rfl⟩

/-- `u` is in the HASH started in `b`, with `k` blocks absorbed and more to come. -/
structure Absorbing (b : State) (k : Nat) (u : State) : Prop where
  request : SameRequest b u
  phase : u.phase = .absorb
  mode : u.mode = b.mode
  blk : u.blk = k
  ocnt : u.ocnt = 0
  out : u.out = b.out
  lanes : u.lanes = absorbedBlocks (message b) b.mode k

/-- `u` is in the HASH started in `b`, with `k` blocks squeezed and more to come. -/
structure Squeezing (b : State) (k : Nat) (u : State) : Prop where
  request : SameRequest b u
  phase : u.phase = .squeeze
  mode : u.mode = b.mode
  ocnt : u.ocnt = k * rate b.mode
  out : ∀ a, memRead u.out a =
    if a < k * rate b.mode then some (squeezedByte (rate b.mode) (absorbed (message b) b.mode) a) else memRead b.out a
  lanes : u.lanes = keccakFTimes k (absorbed (message b) b.mode)

/-- The HASH started in `b` has completed in `u`. -/
structure HashDone (b u : State) : Prop where
  request : SameRequest b u
  phase : u.phase = .done
  ocnt : u.ocnt = b.olen
  out : ∀ a, memRead u.out a =
    if a < b.olen then some (squeezedByte (rate b.mode) (absorbed (message b) b.mode) a) else memRead b.out a

theorem HashStarted.absorbing {b : State} (h : HashStarted b) : Absorbing b 0 b :=
  ⟨.refl b, h.phase, rfl, h.blk, h.ocnt, rfl, h.lanes⟩

theorem absorbStep_mode (s : State) : (absorbStep s).mode = s.mode := by
  by_cases h : s.blk + 1 = blockCount s.mode s.mlen
  · rw [absorbStep_last h]; rfl
  · rw [absorbStep_more h]; rfl

theorem absorbStep_out (s : State) : (absorbStep s).out = s.out := by
  by_cases h : s.blk + 1 = blockCount s.mode s.mlen
  · rw [absorbStep_last h]; rfl
  · rw [absorbStep_more h]; rfl

section
variable {b u : State} {k : Nat} (h : Absorbing b k u)
include h

theorem Absorbing.blk_last_iff :
    u.blk + 1 = blockCount u.mode u.mlen ↔ k + 1 = blockCount b.mode b.mlen := by
  rw [h.blk, h.mode, h.request.mlen]

theorem Absorbing.lanes_next (hk : k < blockCount b.mode b.mlen) :
    (absorbStep u).lanes = absorbedBlocks (message b) b.mode (k + 1) := by
  have hlanes : u.lanes = absorbedBlocks (message u) u.mode u.blk := by
    rw [h.request.message, h.mode, h.blk, h.lanes]
  have hblk : u.blk < blockCount u.mode u.mlen := by rw [h.blk, h.mode, h.request.mlen]; exact hk
  rw [absorbStep_lanes_absorbed hlanes hblk, h.request.message, h.mode, h.blk]

theorem Absorbing.next (hk : k + 1 < blockCount b.mode b.mlen) : Absorbing b (k + 1) (controllerStep u) := by
  have hrequest := h.request.controllerStep
  have hmore : ¬u.blk + 1 = blockCount u.mode u.mlen := fun heq => by have := h.blk_last_iff.1 heq; omega
  rw [controllerStep_absorb h.phase] at hrequest ⊢
  have hphase : (absorbStep u).phase = .absorb := by rw [absorbStep_phase h.phase, if_neg hmore]
  exact
    { request := hrequest
      phase := hphase
      mode := (absorbStep_mode u).trans h.mode
      blk := by rw [absorbStep_blk h.phase hphase, h.blk]
      ocnt := (absorbStep_ocnt u).trans h.ocnt
      out := (absorbStep_out u).trans h.out
      lanes := h.lanes_next (by omega) }

theorem Absorbing.last (hk : k + 1 = blockCount b.mode b.mlen) : Squeezing b 0 (controllerStep u) := by
  have hrequest := h.request.controllerStep
  rw [controllerStep_absorb h.phase] at hrequest ⊢
  exact
    { request := hrequest
      phase := by rw [absorbStep_phase h.phase, if_pos (h.blk_last_iff.2 hk)]
      mode := (absorbStep_mode u).trans h.mode
      ocnt := by rw [absorbStep_ocnt, h.ocnt, Nat.zero_mul]
      out := fun a => by rw [absorbStep_out, h.out, if_neg (by omega)]
      lanes := by
        rw [h.lanes_next (by omega), hk, ← length_message b, absorbedBlocks_all, keccakFTimes] }

end

/-! ### SQUEEZE -/

/-- One more permutation may come first or last. -/
theorem keccakF_keccakFTimes (n : Nat) (A : Lanes) : keccakF (keccakFTimes n A) = keccakFTimes (n + 1) A := by
  induction n generalizing A with
  | zero => rfl
  | succ k ih => exact ih (keccakF A)

/-- The bytes of block `k` are those of the state after `k` permutations (R208). -/
theorem squeezedByte_in_block {r k a : Nat} (A : Lanes) (hlow : k * r ≤ a) (hhigh : a < k * r + r) :
    squeezedByte r A a = stateByte (keccakFTimes k A) (a - k * r) := by
  have hdiv : a / r = k := Nat.div_eq_of_lt_le hlow (by rw [Nat.succ_mul]; exact hhigh)
  have hmod : a % r = a - k * r := by rw [Nat.mod_eq_sub_div_mul, hdiv]
  rw [squeezedByte, hdiv, hmod]

section
variable {b u : State} {k : Nat} (h : Squeezing b k u)
include h

theorem Squeezing.takeCount_eq : takeCount u = min (rate b.mode) (b.olen - k * rate b.mode) := by
  rw [takeCount, h.mode, h.request.olen, h.ocnt]

/-- A squeeze step takes OUT from `k` blocks of the output to as much more as the block emitted has. -/
theorem Squeezing.out_next (hd : b.disturbed = false) (a : Nat) :
    memRead (squeezeStep u).out a =
      if a < k * rate b.mode + takeCount u then some (squeezedByte (rate b.mode) (absorbed (message b) b.mode) a)
      else memRead b.out a := by
  have htake := h.takeCount_eq
  rw [squeezeStep_out, memRead_emitBlock_undisturbed (h.request.disturbed.trans hd), h.ocnt, h.lanes, h.out]
  by_cases hold : a < k * rate b.mode
  · rw [if_neg (by omega), if_pos hold, if_pos (by omega)]
  · by_cases hnew : a < k * rate b.mode + takeCount u
    · rw [if_pos ⟨by omega, hnew⟩, if_pos hnew, squeezedByte_in_block (k := k) _ (by omega) (by omega)]
    · rw [if_neg (by omega), if_neg hold, if_neg hnew]

theorem Squeezing.next (hd : b.disturbed = false) (hk : k * rate b.mode + rate b.mode < b.olen) :
    Squeezing b (k + 1) (controllerStep u) := by
  have hrequest := h.request.controllerStep
  have htake : takeCount u = rate b.mode := by rw [h.takeCount_eq]; omega
  have hmore : u.ocnt + takeCount u ≠ u.olen := by rw [h.ocnt, htake, h.request.olen]; omega
  rw [controllerStep_squeeze h.phase] at hrequest ⊢
  exact
    { request := hrequest
      phase := by rw [squeezeStep_phase h.phase, if_neg hmore]
      mode := by rw [squeezeStep_more hmore]; exact h.mode
      ocnt := by rw [squeezeStep_ocnt, h.ocnt, htake, Nat.succ_mul]
      out := fun a => by rw [h.out_next hd, htake, Nat.succ_mul]
      lanes := by
        rw [← keccakF_keccakFTimes, ← h.lanes, squeezeStep_more hmore]
        rfl }

theorem Squeezing.last (hd : b.disturbed = false) (hlow : k * rate b.mode ≤ b.olen)
    (hhigh : b.olen ≤ k * rate b.mode + rate b.mode) : HashDone b (controllerStep u) := by
  have hrequest := h.request.controllerStep
  have hend : k * rate b.mode + takeCount u = b.olen := by rw [h.takeCount_eq]; omega
  rw [controllerStep_squeeze h.phase] at hrequest ⊢
  exact
    { request := hrequest
      phase := by rw [squeezeStep_done_iff h.phase, h.ocnt, hend, h.request.olen]
      ocnt := by rw [squeezeStep_ocnt, h.ocnt, hend]
      out := fun a => by rw [h.out_next hd, hend] }

end

/-! ### The number of squeeze steps -/

theorem squeezeCount_pos (m : Mode) (o : Nat) : 0 < squeezeCount m o := Nat.le_max_left 1 _

/-- Before the last squeeze step more than a block is owed. -/
theorem block_owed_of_lt {m : Mode} {o k : Nat} (h : k + 1 < squeezeCount m o) : k * rate m + rate m < o := by
  have hk : k + 2 ≤ (o + rate m - 1) / rate m := by unfold squeezeCount at h; omega
  have hr := rate_pos m
  have hle := (Nat.le_div_iff_mul_le hr).1 hk
  rw [Nat.add_mul] at hle
  omega

/-- At the last squeeze step a block at most is owed. -/
theorem last_block {m : Mode} {o k : Nat} (h : k + 1 = squeezeCount m o) :
    k * rate m ≤ o ∧ o ≤ k * rate m + rate m := by
  have hr := rate_pos m
  have hhigh : (o + rate m - 1) / rate m < k + 2 := by unfold squeezeCount at h; omega
  have hle := (Nat.div_lt_iff_lt_mul hr).1 hhigh
  rw [Nat.add_mul] at hle
  refine ⟨?_, by omega⟩
  cases k with
  | zero => omega
  | succ j =>
    have := block_owed_of_lt (m := m) (o := o) (k := j) (by omega)
    rw [Nat.succ_mul]
    omega

/-! ### The whole run -/

/-- The number of steps from the start of the HASH to DONE (R207). -/
def hashSteps (b : State) : Nat := blockCount b.mode b.mlen + squeezeCount b.mode b.olen

section
variable {b : State} (hstart : HashStarted b)
include hstart

theorem HashStarted.absorbing_after {k : Nat} (hk : k < blockCount b.mode b.mlen) :
    Absorbing b k (controllerSteps k b) := by
  induction k with
  | zero => exact hstart.absorbing
  | succ k ih =>
    rw [controllerSteps_succ]
    exact (ih (by omega)).next hk

theorem HashStarted.squeezing_after {k : Nat} (hk : k < squeezeCount b.mode b.olen) :
    Squeezing b k (controllerSteps (blockCount b.mode b.mlen + k) b) := by
  induction k with
  | zero =>
    rw [Nat.add_zero, blockCount, controllerSteps_succ]
    exact (hstart.absorbing_after (Nat.lt_succ_self (b.mlen / rate b.mode))).last rfl
  | succ k ih =>
    rw [← Nat.add_assoc, controllerSteps_succ]
    exact (ih (by omega)).next hstart.undisturbed (block_owed_of_lt hk)

theorem HashStarted.busy_after {n : Nat} (hn : n < hashSteps b) : busy (controllerSteps n b) = true := by
  unfold hashSteps at hn
  by_cases habsorb : n < blockCount b.mode b.mlen
  · exact busy_iff.2 (.inl (hstart.absorbing_after habsorb).phase)
  · obtain ⟨k, rfl⟩ := Nat.exists_eq_add_of_le (Nat.le_of_not_lt habsorb)
    exact busy_iff.2 (.inr (hstart.squeezing_after (by omega)).phase)

theorem HashStarted.done_at_hashSteps : HashDone b (controllerSteps (hashSteps b) b) := by
  obtain ⟨k, hk⟩ := Nat.exists_eq_add_of_lt (squeezeCount_pos b.mode b.olen)
  have hcount : k + 1 = squeezeCount b.mode b.olen := by omega
  obtain ⟨hlow, hhigh⟩ := last_block hcount
  rw [hashSteps, ← hcount, ← Nat.add_assoc, controllerSteps_succ]
  exact (hstart.squeezing_after (by omega)).last hstart.undisturbed hlow hhigh

/-- Once DONE, the controller has no step left. -/
theorem HashStarted.done_from_hashSteps {n : Nat} (hn : hashSteps b ≤ n) : HashDone b (controllerSteps n b) := by
  obtain ⟨k, rfl⟩ := Nat.exists_eq_add_of_le hn
  induction k with
  | zero => exact hstart.done_at_hashSteps
  | succ k ih =>
    have hdone := ih (Nat.le_add_right _ k)
    have hquiet : busy (controllerSteps (hashSteps b + k) b) = false := by simp only [busy, hdone.phase]
    rw [← Nat.add_assoc, controllerSteps_succ, controllerStep_quiescent hquiet]
    exact hdone

theorem HashStarted.hashSteps_le_of_done {n : Nat} (hdone : (controllerSteps n b).phase = .done) :
    hashSteps b ≤ n := by
  refine Nat.le_of_not_lt fun hlt => ?_
  obtain hp | hp := busy_iff.1 (hstart.busy_after hlt)
  · cases hdone.symm.trans hp
  · cases hdone.symm.trans hp

end

theorem runSteps_beginAbsorb (m : Mode) (n : Nat) {s : State} (hr : s.resets = 0) (hh : s.host = []) :
    runSteps n (beginAbsorb m (s.setOcnt 0)) = some (controllerSteps n (beginAbsorb m (s.setOcnt 0))) :=
  runSteps_hostless n hr hh

theorem spongeHash_eq_some_iff {M Z : List Byte} {m : Mode} {o : Nat} :
    spongeHash M m o = some Z ↔ contractBroken m o = false ∧ spongeOutput M m o = Z := by
  unfold spongeHash
  cases contractBroken m o <;> simp

/-- Settles O40: the run of the controller ends in the closed form of the output, which is that of SpongeHash. -/
theorem hashComputesSpongeHash : Obligations.HashComputesSpongeHash := by
  unfold Obligations.HashComputesSpongeHash
  intro m s hr hresets hhost hresource Z hZ
  obtain ⟨hcontract, rfl⟩ := spongeHash_eq_some_iff.1 hZ
  have hstart := hashStarted_beginAbsorb m s
  have hdone := hstart.done_at_hashSteps
  refine ⟨_, _, exec_hashInstr_passing hr hcontract hresource, runSteps_beginAbsorb m _ hresets hhost,
    fun n u hn hu => ?_, hdone.phase, hdone.ocnt, by simp [spongeOutput_eq_map], fun j hj => ?_, fun a ha => ?_,
    hdone.request.msg, hdone.request.mlen, hdone.request.olen, hdone.request.errcode⟩
  · cases (runSteps_beginAbsorb m n hresets hhost).symm.trans hu
    exact hstart.busy_after hn
  · rw [getElem?_spongeOutput _ _ hj]
    exact (hdone.out j).trans (if_pos hj)
  · exact (hdone.out a).trans (if_neg (Nat.not_lt.2 ha))

/-! ### Two machines -/

/-- The result of a completed HASH is the sponge's output on its message. -/
theorem HashDone.result {b u : State} (h : HashDone b u) :
    result u = some (spongeOutput (message b) b.mode b.olen) := by
  rw [Machine.result, if_pos h.phase, h.ocnt, spongeOutput_eq_map]
  refine congrArg some (List.map_congr_left fun a ha => ?_)
  rw [outByte, h.out, if_pos (List.mem_range.1 ha)]
  rfl

/-- Settles O43: both machines take the number of steps that the lengths and the mode give, and both results are the
sponge's output on the one message. -/
theorem hashIndependentOfHistory : Obligations.HashIndependentOfHistory := by
  unfold Obligations.HashIndependentOfHistory
  intro m s s' b b' t t' n hr hr' hresets hresets' hhost hhost' holen hmessage hb hb' hp hp' ht ht' hdone
  obtain ⟨-, rfl⟩ := checked_of_exec_hashInstr hr hb hp
  obtain ⟨-, rfl⟩ := checked_of_exec_hashInstr hr' hb' hp'
  cases (runSteps_beginAbsorb m n hresets hhost).symm.trans ht
  cases (runSteps_beginAbsorb m n hresets' hhost').symm.trans ht'
  have hstart := hashStarted_beginAbsorb m s
  have hstart' := hashStarted_beginAbsorb m s'
  have hmlen : s.mlen = s'.mlen := by rw [← length_message, hmessage, length_message]
  have hsteps : hashSteps (beginAbsorb m (s'.setOcnt 0)) = hashSteps (beginAbsorb m (s.setOcnt 0)) := by
    simp [hashSteps, beginAbsorb, hmlen, holen]
  have hn := hstart.hashSteps_le_of_done hdone
  have hfinal := hstart.done_from_hashSteps hn
  have hfinal' := hstart'.done_from_hashSteps (Nat.le_trans (Nat.le_of_eq hsteps) hn)
  have hrequested : message (beginAbsorb m (s.setOcnt 0)) = message (beginAbsorb m (s'.setOcnt 0)) := hmessage
  refine ⟨hfinal'.phase, ?_⟩
  rw [hfinal.result, hfinal'.result, hrequested]
  exact congrArg (fun o => some (spongeOutput _ m o)) holen

end Sys2Proof.Machine
end

section
/-! The commands and register accesses of the host (44_host_commands.md R230, R231, R233 to R235): NOP, CLR, a command that is
held, the register writes of a machine that is not BUSY, and a read of STATUS while it is BUSY. -/

namespace Sys2Proof.Machine

/-! ### Commands -/

/-- While BUSY none of the transitions of a command can be taken (R235, 70_reset_and_hazards.md R290). -/
theorem CommandEffect.eq_of_busy {s t : State} (h : CommandEffect s t) (hb : busy s = true) : t = s := by
  have hready : ¬ready s := fun hr => Bool.eq_false_iff.1 (busy_of_ready hr) hb
  cases h with
  | unchanged => rfl
  | cleared hq => exact absurd hb (Bool.eq_false_iff.1 hq)
  | lanes hr => exact absurd hr hready
  | permuted hr => exact absurd hr hready
  | reserved hr => exact absurd hr hready
  | hash hr => exact absurd hr hready

/-- Settles O8: every command answers a next state, and each transition to another one needs a PHASE that is not BUSY. -/
theorem busyCommandHasNoEffect : Obligations.BusyCommandHasNoEffect := by
  unfold Obligations.BusyCommandHasNoEffect
  intro s i hb
  obtain ⟨t, ht⟩ := exec_next i s
  rw [ht, (commandEffect_of_exec ht).eq_of_busy hb]

/-- Settles O10: the transition of NOP is the identity. -/
theorem nopChangesNothing : Obligations.NopChangesNothing := by
  unfold Obligations.NopChangesNothing
  exact ⟨rfl, fun _ => rfl⟩

/-- CLR is acted on in IDLE, DONE and ERROR (R231). -/
theorem acceptClear_not_busy (effect : State → State) {s : State} (hb : busy s = false) :
    acceptClear effect s = .next (effect s) := by
  obtain ⟨habsorb, hsqueeze⟩ := phase_of_not_busy hb
  unfold acceptClear
  split
  · rfl
  · rfl
  · rfl
  · exact absurd ‹_› habsorb
  · exact absurd ‹_› hsqueeze

theorem statusByte_clearError (s : State) : statusByte (clearError s) = 0x00#8 := by
  change 0#2 ++ errNumber .none ++ 0#1 ++ phaseCode .idle = 0x00#8
  decide

/-- Settles O11: where it is not held, CLR is the return to IDLE, and STATUS is then its two fields at 0. -/
theorem clrReturnsToIdle : Obligations.ClrReturnsToIdle := by
  unfold Obligations.ClrReturnsToIdle
  exact ⟨rfl, fun s => ⟨fun hb => ⟨acceptClear_not_busy clearError hb, statusByte_clearError s⟩,
    busyCommandHasNoEffect s .clr⟩⟩

/-! ### Register writes -/

theorem writeRegister_mlen {v : Nat} {s : State} (hv : Config.fits v s.cfg.lenW = true) :
    writeRegister 0x02 v s = .next (s.setMlen v) :=
  if_pos hv

theorem writeRegister_olen {v : Nat} {s : State} (hv : Config.fits v s.cfg.lenW = true) :
    writeRegister 0x03 v s = .next (s.setOlen v) :=
  if_pos hv

theorem writeRegister_lane {k v : Nat} (s : State) (hk : k < 25) (hv : v < 2 ^ 64) :
    writeRegister (0x20 + k) v s = .next (s.setLanes (setLaneAt s.lanes k (BitVec.ofNat 64 v))) := by
  simp only [writeRegister, regOfNumber_lane hk]
  exact if_pos hv

theorem writeRegister_reserved {n : Nat} (v : Nat) (s : State) (h : (0x05 ≤ n ∧ n ≤ 0x1F) ∨ 0x39 ≤ n) :
    writeRegister n v s = .next s := by
  simp only [writeRegister, regOfNumber_reserved h]

/-- Settles O50: a quiescent step is `writeRegister`, which the register map gives number by number. -/
theorem registerWrites : Obligations.RegisterWrites := by
  unfold Obligations.RegisterWrites
  intro s n v rest hr hb hh
  have hstep : step s = writeRegister n v (s.setHost rest) := step_quiescent_move hr hb hh
  refine ⟨?_, ?_, ?_, ?_⟩
  · rintro rfl hv
    exact hstep.trans (writeRegister_mlen hv)
  · rintro rfl hv
    exact hstep.trans (writeRegister_olen hv)
  · rintro k hk rfl hv
    exact ⟨_, hstep.trans (writeRegister_lane _ hk hv), laneAt_setLaneAt_self .., fun j hj hne =>
      laneAt_setLaneAt_of_ne _ _ hj hk hne⟩
  · rintro (rfl | rfl | hreserved)
    · exact hstep
    · exact hstep
    · exact hstep.trans (writeRegister_reserved v _ hreserved)

/-! ### A read of STATUS while BUSY -/

/-- Settles O48: a read of STATUS is a move that is never held, and the draw of the free choice does not show in STATUS. -/
theorem statusReadAnsweredWhileBusy : Obligations.StatusReadAnsweredWhileBusy := by
  unfold Obligations.StatusReadAnsweredWhileBusy
  exact fun s rest hr hb hh => step_unheld hr hb hh rfl

end Sys2Proof.Machine
end

section
/-! The errors (60_exceptions.md): a reserved word raises IllegalCommand and a HASH one of the other two, no step of a HASH in
progress raises any, and from ERROR only CLR and a reset lead out. -/

namespace Sys2Proof.Machine

/-! ### Reserved words -/

/-- Settles O5: the words of the list are those that decode to no command, and such a word has the effect of `execReserved`. -/
theorem reservedWordRaisesIllegalCommand : Obligations.ReservedWordRaisesIllegalCommand := by
  unfold Obligations.ReservedWordRaisesIllegalCommand
  intro s c rest hr hready hh hword
  obtain ⟨why, hdecode⟩ := (encodeOfDecode c).2.2 hword
  rw [step_command hr (busy_of_ready hready) hh, issueCommand, hdecode]
  exact execReserved_ready hready

/-! ### The two errors of a HASH -/

theorem exec_hashInstr_contractBroken {m : Mode} {s : State} (hr : ready s) (hcontract : contractBroken m s.olen = true) :
    exec (hashInstr m) s = .next { s with ocnt := 0, phase := .error, errcode := .contractViolation } := by
  rw [exec_hashInstr, accept_ready _ hr, startHash, if_pos hcontract]
  rfl

theorem exec_hashInstr_resourceShort {m : Mode} {s : State} (hr : ready s) (hcontract : contractBroken m s.olen = false)
    (hresource : resourceShort s = true) :
    exec (hashInstr m) s = .next { s with ocnt := 0, phase := .error, errcode := .resourceExhaustion } := by
  rw [exec_hashInstr, accept_ready _ hr, startHash, hcontract, hresource]
  rfl

/-- Settles O34: with a fixed size the contract check compares OLEN with it, and with none it passes. -/
theorem hashContractViolation : Obligations.HashContractViolation := by
  unfold Obligations.HashContractViolation
  intro m s hr
  constructor
  · intro f hfixed holen
    refine exec_hashInstr_contractBroken hr (Bool.of_not_eq_false fun hcontract => ?_)
    exact holen (contractBroken_eq_false_iff.1 hcontract f hfixed)
  · intro hnone t ht herr
    have hcontract : contractBroken m s.olen = false := contractBroken_eq_false_iff.2 (by simp [hnone])
    cases hresource : resourceShort s with
    | true =>
      cases (exec_hashInstr_resourceShort hr hcontract hresource).symm.trans ht
      exact nofun
    | false =>
      cases (exec_hashInstr_passing hr hcontract hresource).symm.trans ht
      exact herr

/-- Settles O35: a length over its limit fails the resource check, which follows the contract check. -/
theorem hashResourceExhaustion : Obligations.HashResourceExhaustion := by
  unfold Obligations.HashResourceExhaustion
  intro m s hr hfixed hover
  have hresource : resourceShort s = true := by
    obtain ⟨_, hlimit, hlt⟩ | ⟨_, hlimit, hlt⟩ := hover
    · exact Bool.or_eq_true_iff.2 (.inl (Config.exceeds_of_lt hlimit hlt))
    · exact Bool.or_eq_true_iff.2 (.inr (Config.exceeds_of_lt hlimit hlt))
  exact exec_hashInstr_resourceShort hr (contractBroken_eq_false_iff.2 hfixed) hresource

/-! ### ERROR is neither BUSY nor ready -/

theorem busy_of_phase_error {s : State} (hp : s.phase = .error) : busy s = false := by simp [busy, hp]

theorem accept_of_phase_error (effect : State → State) {s : State} (hp : s.phase = .error) :
    accept effect s = .next s :=
  accept_not_ready effect fun hr => phase_ne_error_of_ready hr hp

/-! ### PHASE and ERRCODE under the moves of the host -/

theorem fillMsg_control {bytes : List Byte} {s t : State} (h : fillMsg bytes s = .next t) :
    t.phase = s.phase ∧ t.errcode = s.errcode := by
  unfold fillMsg at h
  split at h
  · cases h
  · split at h <;> cases h <;> exact ⟨rfl, rfl⟩

theorem readOutBytes_control {n : Nat} {s t : State} (h : readOutBytes n s = .next t) :
    t.phase = s.phase ∧ t.errcode = s.errcode := by
  unfold readOutBytes at h
  split at h
  · cases h
  · split at h <;> cases h <;> exact ⟨rfl, rfl⟩

theorem eq_zero_of_regOfNumber_cmd {n : Nat} (h : regOfNumber n = .cmd) : n = 0x00 := by
  unfold regOfNumber at h
  split at h
  · assumption
  · split_ifs at h

/-- A host move writes neither PHASE nor ERRCODE, unless it issues a command. -/
theorem performMove_control {m : HostMove} {s t : State} (h : performMove m s = .next t) :
    (∃ c : Byte, m = .write 0x00 c.toNat ∧ issueCommand c s = .next t) ∨
      (t.phase = s.phase ∧ t.errcode = s.errcode) := by
  obtain ⟨n, -, rfl⟩ | ⟨n, v, rfl, h⟩ | ⟨bytes, -, h⟩ | ⟨n, -, h⟩ | ⟨-, rfl⟩ := performMove_cases h
  · exact .inr ⟨rfl, rfl⟩
  · obtain ⟨hreg, hv, h⟩ | ⟨-, -, rfl⟩ | ⟨-, -, rfl⟩ | ⟨k, -, -, rfl⟩ | rfl := writeRegister_cases h
    · refine .inl ⟨BitVec.ofNat 8 v, ?_, h⟩
      rw [eq_zero_of_regOfNumber_cmd hreg, BitVec.toNat_ofNat, Nat.mod_eq_of_lt hv]
    · exact .inr ⟨rfl, rfl⟩
    · exact .inr ⟨rfl, rfl⟩
    · exact .inr ⟨rfl, rfl⟩
    · exact .inr ⟨rfl, rfl⟩
  · exact .inr (fillMsg_control h)
  · exact .inr (readOutBytes_control h)
  · exact .inr ⟨rfl, rfl⟩

/-! ### No error while BUSY -/

/-- An absorb step leads to ABSORB or SQUEEZE, a squeeze step to SQUEEZE or DONE (43_sponge_controller.md R203, R205). -/
theorem controllerStep_phase_ne_error {s : State} (hb : busy s = true) : (controllerStep s).phase ≠ .error := by
  obtain hp | hp := busy_iff.1 hb
  · rw [controllerStep_absorb hp, absorbStep_phase hp]
    split <;> decide
  · rw [controllerStep_squeeze hp, squeezeStep_phase hp]
    split <;> decide

/-- While BUSY a step in which no reset lands does not stop: a move that could is held (R296). -/
theorem coreStep_next_of_busy {s : State} (hb : busy s = true) : ∃ t, coreStep s = .next t := by
  rw [coreStep, if_pos hb]
  unfold busyStep
  split
  · exact ⟨_, rfl⟩
  · next m rest _ =>
    split
    · next hn =>
      split
      · exact performMove_unheld hn rfl
      · exact ⟨_, rfl⟩
    · exact ⟨_, rfl⟩

/-- While BUSY a step in which no reset lands raises no error: the moves that could issue a command are held. -/
theorem coreStep_control_of_busy {s t : State} (hb : busy s = true) (h : coreStep s = .next t) :
    t.phase ≠ .error ∧ t.errcode = s.errcode := by
  obtain ⟨u, hu, hcases⟩ := coreStep_cases h
  have hphase : u.phase = s.phase := by obtain rfl | rfl := hu <;> rfl
  have herrcode : u.errcode = s.errcode := by obtain rfl | rfl := hu <;> rfl
  obtain ⟨-, rfl⟩ | ⟨m, rest, -, hheld, hmove⟩ | ⟨hquiet, -, -⟩ := hcases
  · have hbu : busy u = true := busy_iff.2 (hphase ▸ busy_iff.1 hb)
    obtain ⟨-, -, -, hkept, -⟩ := controllerStep_frame u
    exact ⟨controllerStep_phase_ne_error hbu, hkept.trans herrcode⟩
  · obtain ⟨c, rfl, -⟩ | ⟨hsame, hkept⟩ := performMove_control hmove
    · exact absurd (hheld hb) Bool.false_ne_true
    · refine ⟨fun herror => ?_, hkept.trans herrcode⟩
      have hs : s.phase = .error := hphase.symm.trans (hsame.symm.trans herror)
      exact Bool.false_ne_true ((busy_of_phase_error hs).symm.trans hb)
  · exact absurd hb (Bool.eq_false_iff.1 hquiet)

/-- A step with a reset still to come: it lands, or the step is one in which none lands (R280). -/
theorem step_reset_owed {s : State} {n : Nat} (h : s.resets = n + 1) :
    step s =
      if Config.resetNow s.draws then .next (resetEvent (s.setResets n)) else coreStep (s.setDraws (s.draws + 1)) := by
  simp only [step, machineStep, h]

/-- Settles O46: a reset leads to IDLE, and without one the step is `coreStep`, which raises no error while BUSY. -/
theorem noErrorWhileBusy : Obligations.NoErrorWhileBusy := by
  unfold Obligations.NoErrorWhileBusy
  intro s hb
  cases hr : s.resets with
  | zero =>
    obtain ⟨t, ht⟩ := coreStep_next_of_busy hb
    obtain ⟨hphase, herrcode⟩ := coreStep_control_of_busy hb ht
    exact ⟨t, (step_no_reset hr).trans ht, hphase, fun _ => herrcode⟩
  | succ n =>
    rw [step_reset_owed hr]
    split
    · exact ⟨_, rfl, nofun, nofun⟩
    · obtain ⟨t, ht⟩ := coreStep_next_of_busy (s := s.setDraws (s.draws + 1)) hb
      obtain ⟨hphase, -⟩ := coreStep_control_of_busy (s := s.setDraws (s.draws + 1)) hb ht
      exact ⟨t, ht, hphase, nofun⟩

/-! ### In ERROR -/

theorem withRound_eq_accept (ir : BitVec 5) (f : Fin 24 → Lanes → Lanes) :
    ∃ effect, ∀ s, withRound ir f s = accept effect s := by
  by_cases hir : ir.toNat < 24
  · exact ⟨_, fun s => withRound_legal f s hir⟩
  · exact ⟨_, fun s => withRound_reserved f s hir⟩

/-- Every command other than NOP and CLR is performed, ignored or held by the phase (44_host_commands.md R235). -/
theorem exec_eq_accept {i : Instr} (hnop : i ≠ .nop) (hclr : i ≠ .clr) : ∃ effect, ∀ s, exec i s = accept effect s := by
  cases i with
  | nop => exact absurd rfl hnop
  | clr => exact absurd rfl hclr
  | iota ir => exact withRound_eq_accept ir iota
  | round ir => exact withRound_eq_accept ir keccakRound
  | init | theta | rho | pi | chi | keccakf | hashSha3_224 | hashSha3_256 | hashSha3_384 | hashSha3_512 | hashShake128
  | hashShake256 => exact ⟨_, fun _ => rfl⟩

theorem exec_of_phase_error {i : Instr} {s : State} (hp : s.phase = .error) (hclr : i ≠ .clr) : exec i s = .next s := by
  by_cases hnop : i = .nop
  · rw [hnop]
    rfl
  · obtain ⟨effect, hexec⟩ := exec_eq_accept hnop hclr
    rw [hexec]
    exact accept_of_phase_error effect hp

/-- In ERROR a command word other than CLR's is ignored, reserved or not (R257). -/
theorem issueCommand_of_phase_error {c : Byte} {s : State} (hp : s.phase = .error) (hc : c ≠ encode .clr) :
    issueCommand c s = .next s := by
  cases hdecode : decode c with
  | instr i =>
    have hclr : i ≠ .clr := by
      rintro rfl
      exact hc ((encodeOfDecode c).1 _ hdecode).2.symm
    rw [issueCommand, hdecode]
    exact exec_of_phase_error hp hclr
  | reserved why =>
    rw [issueCommand, hdecode]
    exact accept_of_phase_error _ hp

/-- Settles O7: ERROR is not BUSY, so the step issues the word, and ERROR ignores it. -/
theorem errorPhaseIgnoresCommands : Obligations.ErrorPhaseIgnoresCommands := by
  unfold Obligations.ErrorPhaseIgnoresCommands
  intro s c rest hr hp hh hc
  rw [step_command hr (busy_of_phase_error hp) hh]
  exact issueCommand_of_phase_error hp hc

/-- CLR is the one host move that leads out of ERROR, and it leads to IDLE. -/
theorem performMove_leaves_error {m : HostMove} {s t : State} (hp : s.phase = .error) (h : performMove m s = .next t)
    (hleaves : t.phase ≠ .error) : t.phase = .idle ∧ m = .write 0x00 (encode .clr).toNat := by
  obtain ⟨c, rfl, hissue⟩ | ⟨hsame, -⟩ := performMove_control h
  · by_cases hc : c = encode .clr
    · subst hc
      have hclear : issueCommand (encode .clr) s = .next (clearError s) :=
        acceptClear_not_busy clearError (busy_of_phase_error hp)
      cases hclear.symm.trans hissue
      exact ⟨rfl, rfl⟩
    · cases (issueCommand_of_phase_error hp hc).symm.trans hissue
      exact absurd hp hleaves
  · exact absurd (hsame.trans hp) hleaves

/-- A step in which no reset lands leaves ERROR only by performing CLR. -/
theorem coreStep_leaves_error {s t : State} (hp : s.phase = .error) (h : coreStep s = .next t)
    (hleaves : t.phase ≠ .error) : t.phase = .idle ∧ ∃ rest, s.host = .write 0x00 (encode .clr).toNat :: rest := by
  obtain ⟨u, hu, ⟨hb, -⟩ | ⟨m, rest, hh, -, hmove⟩ | ⟨-, -, rfl⟩⟩ := coreStep_cases h
  · exact absurd hb (Bool.eq_false_iff.1 (busy_of_phase_error hp))
  · have hpu : (u.setHost rest).phase = .error := by obtain rfl | rfl := hu <;> exact hp
    obtain ⟨hidle, rfl⟩ := performMove_leaves_error hpu hmove hleaves
    exact ⟨hidle, rest, hh⟩
  · exact absurd hp hleaves

/-- Settles O60: a reset lands and takes one of the resets owed, or the step is `coreStep`, which leaves ERROR by CLR alone. -/
theorem onlyClrOrResetLeavesError : Obligations.OnlyClrOrResetLeavesError := by
  unfold Obligations.OnlyClrOrResetLeavesError
  intro s t hp h hleaves
  obtain ⟨n, hn, rfl⟩ | ⟨u, hu, hcore⟩ := step_cases h
  · exact ⟨rfl, .inl (Nat.lt_of_lt_of_eq n.lt_succ_self hn.symm)⟩
  · have hpu : u.phase = .error := by obtain rfl | rfl := hu <;> exact hp
    have hhost : u.host = s.host := by obtain rfl | rfl := hu <;> rfl
    obtain ⟨hidle, hclr⟩ := coreStep_leaves_error hpu hcore hleaves
    exact ⟨hidle, .inr (hhost ▸ hclr)⟩

end Sys2Proof.Machine
end

section
/-! Reset, the busy hold, and that a HASH in progress finishes (70_reset_and_hazards.md R280, R282, R290, R296). While BUSY
a step is the controller's, which brings the HASH nearer to DONE, or it performs one of the finitely many pending moves. -/

namespace Sys2Proof.Machine

/-! ### What the controller has still to do -/

/-- A bound on the steps the controller has still to take: one for each block to absorb, at most one for each byte owed,
and one more. -/
def controllerWork (s : State) : Nat :=
  match s.phase with
  | .absorb => (blockCount s.mode s.mlen - s.blk) + (s.olen - s.ocnt) + 1
  | .squeeze => s.olen - s.ocnt + 1
  | .idle => 0
  | .done => 0
  | .error => 0

theorem controllerWork_absorb {s : State} (hp : s.phase = .absorb) :
    controllerWork s = (blockCount s.mode s.mlen - s.blk) + (s.olen - s.ocnt) + 1 := by
  simp only [controllerWork, hp]

theorem controllerWork_squeeze {s : State} (hp : s.phase = .squeeze) : controllerWork s = s.olen - s.ocnt + 1 := by
  simp only [controllerWork, hp]

theorem controllerWork_done {s : State} (hp : s.phase = .done) : controllerWork s = 0 := by
  simp only [controllerWork, hp]

/-- An absorb step leaves a block fewer to absorb (43_sponge_controller.md R203). -/
theorem controllerWork_absorbStep_lt {s : State} (hs : Invariant s) (hp : s.phase = .absorb) :
    controllerWork (absorbStep s) < controllerWork s := by
  obtain ⟨hblk, -⟩ := hs.absorbOwes hp
  obtain ⟨hmlen, holen, -⟩ := controllerStep_frame s
  rw [controllerStep_absorb hp] at hmlen holen
  rw [controllerWork_absorb hp]
  by_cases hlast : s.blk + 1 = blockCount s.mode s.mlen
  · have hphase := (absorbStep_phase hp).trans (if_pos hlast)
    rw [controllerWork_squeeze hphase, absorbStep_ocnt, holen]
    omega
  · have hphase := (absorbStep_phase hp).trans (if_neg hlast)
    rw [controllerWork_absorb hphase, absorbStep_mode, absorbStep_blk hp hphase, absorbStep_ocnt, hmlen, holen]
    omega

/-- A squeeze step leaves no byte owed, or it has emitted a whole block (R205). -/
theorem controllerWork_squeezeStep_lt {s : State} (hs : Invariant s) (hp : s.phase = .squeeze) :
    controllerWork (squeezeStep s) < controllerWork s := by
  obtain ⟨-, holen, -⟩ := controllerStep_frame s
  rw [controllerStep_squeeze hp] at holen
  rw [controllerWork_squeeze hp]
  by_cases hlast : s.ocnt + takeCount s = s.olen
  · have hphase := (squeezeStep_phase hp).trans (if_pos hlast)
    rw [controllerWork_done hphase]
    exact Nat.succ_pos _
  · have hphase := (squeezeStep_phase hp).trans (if_neg hlast)
    have hrate := rate_pos s.mode
    have hle := hs.ocnt_le_olen (busy_iff.2 (.inr hp))
    rw [controllerWork_squeeze hphase, squeezeStep_ocnt, holen]
    unfold takeCount at hlast ⊢
    omega

theorem controllerWork_controllerStep_lt {s : State} (hs : Invariant s) (hb : busy s = true) :
    controllerWork (controllerStep s) < controllerWork s := by
  obtain hp | hp := busy_iff.1 hb
  · rw [controllerStep_absorb hp]
    exact controllerWork_absorbStep_lt hs hp
  · rw [controllerStep_squeeze hp]
    exact controllerWork_squeezeStep_lt hs hp

/-- `s` is in a HASH in progress, or in one that has completed with all its output written. -/
def InHash (s : State) : Prop := busy s = true ∨ (s.phase = .done ∧ s.ocnt = s.olen)

/-- An absorb step leads to ABSORB or SQUEEZE, and a squeeze step leaves SQUEEZE only at the last byte (R203, R205). -/
theorem inHash_controllerStep {s : State} (hb : busy s = true) : InHash (controllerStep s) := by
  obtain ⟨-, holen, -⟩ := controllerStep_frame s
  obtain hp | hp := busy_iff.1 hb
  · have hphase := absorbStep_phase hp
    rw [controllerStep_absorb hp]
    by_cases hlast : s.blk + 1 = blockCount s.mode s.mlen
    · exact .inl (busy_iff.2 (.inr (hphase.trans (if_pos hlast))))
    · exact .inl (busy_iff.2 (.inl (hphase.trans (if_neg hlast))))
  · have hphase := squeezeStep_phase hp
    rw [controllerStep_squeeze hp] at holen ⊢
    by_cases hlast : s.ocnt + takeCount s = s.olen
    · exact .inr ⟨hphase.trans (if_pos hlast), by rw [squeezeStep_ocnt, hlast, holen]⟩
    · exact .inl (busy_iff.2 (.inr (hphase.trans (if_neg hlast))))

/-! ### The busy hold -/

theorem eq_one_of_regOfNumber_status {n : Nat} (h : regOfNumber n = .status) : n = 0x01 := by
  unfold regOfNumber at h
  split_ifs at h
  assumption

theorem neverHeld_read {n : Nat} (s : State) (hn : n ≠ 0x01) : neverHeld (.read n) s = false :=
  decide_eq_false fun h => hn (eq_one_of_regOfNumber_status h)

theorem hostWaits_cons {s : State} {m : HostMove} {rest : List HostMove} (hh : s.host = m :: rest) :
    hostWaits s = !neverHeld m s := by
  simp only [hostWaits, hh]

/-- Settles O47: each of these moves is one that KCORE holds, and the controller's step leaves the host's side alone. -/
theorem heldAccessesWait : Obligations.HeldAccessesWait := by
  unfold Obligations.HeldAccessesWait
  intro s m rest hr hb hh hkind
  have hheld : neverHeld m s = false := by
    obtain rfl | ⟨n, v, rfl⟩ | ⟨n, rfl, hn⟩ | ⟨bytes, rfl, hlong⟩ | ⟨n, rfl, hlong⟩ := hkind
    · rfl
    · rfl
    · exact neverHeld_read s hn
    · exact congrArg not hlong
    · exact congrArg not hlong
  obtain ⟨-, -, -, -, -, hhost, hanswers, -⟩ := controllerStep_frame s
  exact ⟨_, step_hostWaits hr hb ((hostWaits_cons hh).trans (congrArg not hheld)), rfl, hhost, hanswers⟩

/-- A move that is not held writes only the buffers, the record of answers, the mark of disturbance and the draws. -/
theorem performMove_unheld_frame {m : HostMove} {s t : State} (hn : neverHeld m s = true)
    (h : performMove m s = .next t) :
    ∃ M O answers disturbed d,
      t = { s with msg := M, out := O, answers := answers, disturbed := disturbed, draws := d } := by
  obtain ⟨n, -, rfl⟩ | ⟨n, v, rfl, -⟩ | ⟨bytes, -, h⟩ | ⟨n, -, h⟩ | ⟨-, rfl⟩ := performMove_cases h
  · exact ⟨_, _, _, _, _, rfl⟩
  · exact absurd hn Bool.false_ne_true
  · unfold fillMsg at h
    split at h
    · cases h
    · split at h <;> cases h <;> exact ⟨_, _, _, _, _, rfl⟩
  · unfold readOutBytes at h
    split at h
    · cases h
    · split at h <;> cases h <;> exact ⟨_, _, _, _, _, rfl⟩
  · exact ⟨_, _, _, _, _, rfl⟩

/-! ### A HASH in progress -/

/-- What a run from `s` to `t` inside one HASH keeps: OLEN, that no reset is owed, and the host's pending moves but for
those let through; where the busy hold lets none through, all of them. -/
structure SameHash (s t : State) : Prop where
  olen : t.olen = s.olen
  resets : t.resets = s.resets
  host : t.host <:+ s.host
  waits : hostWaits s = true → hostWaits t = true ∧ t.host = s.host

theorem SameHash.refl (s : State) : SameHash s s :=
  ⟨rfl, rfl, List.suffix_rfl, fun hw => ⟨hw, rfl⟩⟩

theorem SameHash.trans {s t u : State} (hst : SameHash s t) (htu : SameHash t u) : SameHash s u where
  olen := htu.olen.trans hst.olen
  resets := htu.resets.trans hst.resets
  host := htu.host.trans hst.host
  waits hw :=
    have ⟨hwt, hhost⟩ := hst.waits hw
    have ⟨hwu, hhost'⟩ := htu.waits hwt
    ⟨hwu, hhost'.trans hhost⟩

theorem hostWaits_congr {s t : State} (hhost : t.host = s.host) (hcfg : t.cfg = s.cfg) : hostWaits t = hostWaits s := by
  have hheld : ∀ m, neverHeld m t = neverHeld m s := fun m => by cases m <;> simp only [neverHeld, hcfg]
  simp only [hostWaits, hhost, hheld]

theorem sameHash_setDraws (s : State) (d : Nat) : SameHash s (s.setDraws d) :=
  ⟨rfl, rfl, List.suffix_rfl, fun hw => ⟨(hostWaits_congr rfl rfl).trans hw, rfl⟩⟩

theorem sameHash_controllerStep (s : State) : SameHash s (controllerStep s) := by
  obtain ⟨-, holen, -, -, hcfg, hhost, -, hresets, -⟩ := controllerStep_frame s
  exact ⟨holen, hresets, hhost ▸ List.suffix_rfl, fun hw => ⟨(hostWaits_congr hhost hcfg).trans hw, hhost⟩⟩

/-- The controller's work and the number of moves pending: while BUSY every step leaves less of the two. -/
def workLeft (s : State) : Nat := controllerWork s + s.host.length

/-- `t` is in the HASH in progress in `s`, or at its end, with less left to do. -/
structure Advances (s t : State) : Prop where
  same : SameHash s t
  inHash : InHash t
  less : workLeft t < workLeft s

theorem advances_controllerStep {s : State} (hs : Invariant s) (hb : busy s = true) :
    Advances s (controllerStep s) where
  same := sameHash_controllerStep s
  inHash := inHash_controllerStep hb
  less := Nat.add_lt_add_of_lt_of_le (controllerWork_controllerStep_lt hs hb) (sameHash_controllerStep s).host.length_le

theorem advances_performMove {s t : State} {m : HostMove} {rest : List HostMove} (hb : busy s = true)
    (hh : s.host = m :: rest) (hn : neverHeld m s = true) (h : performMove m (s.setHost rest) = .next t) :
    Advances s t := by
  obtain ⟨M, O, answers, disturbed, d, rfl⟩ := performMove_unheld_frame (s := s.setHost rest) hn h
  have hwaits : hostWaits s = false := (hostWaits_cons hh).trans (congrArg not hn)
  exact
    { same := ⟨rfl, rfl, ⟨[m], hh.symm⟩, fun hw => absurd hw (Bool.eq_false_iff.1 hwaits)⟩
      inHash := .inl hb
      less := Nat.add_lt_add_left (by rw [hh]; exact Nat.lt_succ_self _) (controllerWork s) }

/-- Every step of a HASH in progress leaves less to do, whatever the host has pending (R296). -/
theorem advances_step {s t : State} (hs : Invariant s) (hr : s.resets = 0) (hb : busy s = true) (h : step s = .next t) :
    Advances s t := by
  rw [step_no_reset hr] at h
  obtain ⟨u, hu, hcase⟩ := coreStep_cases h
  obtain ⟨hui, hbu, hhost, hsame, hwork⟩ :
      Invariant u ∧ busy u = true ∧ u.host = s.host ∧ SameHash s u ∧ workLeft u = workLeft s := by
    obtain rfl | rfl := hu
    · exact ⟨hs, hb, rfl, .refl _, rfl⟩
    · exact ⟨hs.setDraws _, hb, rfl, sameHash_setDraws s _, rfl⟩
  have hadvances : Advances u t := by
    obtain ⟨-, rfl⟩ | ⟨m, rest, hh, hheld, hmove⟩ | ⟨hquiet, -, -⟩ := hcase
    · exact advances_controllerStep hui hbu
    · have hn : neverHeld m u = true := by obtain rfl | rfl := hu <;> exact hheld hb
      exact advances_performMove hbu (hhost.trans hh) hn hmove
    · exact absurd hb (Bool.eq_false_iff.1 hquiet)
  exact ⟨hsame.trans hadvances.same, hadvances.inHash, hwork ▸ hadvances.less⟩

theorem runSteps_succ {n : Nat} {s t : State} (h : step s = .next t) : runSteps (n + 1) s = runSteps n t := by
  simp only [runSteps, h]

/-- Steps are taken until DONE, since each leaves less to do. -/
theorem exists_runSteps_done {s : State} (hs : Invariant s) (hr : s.resets = 0) (hb : busy s = true) :
    ∃ n t, runSteps n s = some t ∧ t.phase = .done ∧ t.ocnt = t.olen ∧ SameHash s t := by
  induction hw : workLeft s using Nat.strong_induction_on generalizing s with
  | _ w ih =>
    obtain ⟨t, ht, -⟩ := noErrorWhileBusy s hb
    obtain ⟨hsame, hbusy | ⟨hdone, hocnt⟩, hless⟩ := advances_step hs hr hb ht
    · obtain ⟨n, u, hrun, hdone, hocnt, hrest⟩ :=
        ih _ (hw ▸ hless) (stepKeepsInvariant s t hs ht) (hsame.resets.trans hr) hbusy rfl
      exact ⟨n + 1, u, (runSteps_succ ht).trans hrun, hdone, hocnt, hsame.trans hrest⟩
    · exact ⟨1, t, runSteps_succ ht, hdone, hocnt, hsame⟩

/-- Settles O39: by induction on the work left, the controller's and the moves that a step may answer instead. -/
theorem busyHashFinishes : Obligations.BusyHashFinishes := by
  unfold Obligations.BusyHashFinishes
  intro s hs hr hb
  obtain ⟨n, t, hrun, hdone, hocnt, hsame⟩ := exists_runSteps_done hs hr hb
  exact ⟨n, t, hrun, hdone, hocnt.trans hsame.olen, hsame.host, fun hw => (hsame.waits hw).2⟩

/-! ### Reset -/

theorem statusByte_resetEvent (s : State) : statusByte (resetEvent s) = 0x00#8 := statusByte_clearError s

/-- Settles O56: the values are those of the power-up state, whatever was there before, and a step with a reset owed is
one of two. -/
theorem resetEventAbandonsHash : Obligations.ResetEventAbandonsHash := by
  unfold Obligations.ResetEventAbandonsHash
  intro s
  refine ⟨?_, fun n hn => ?_⟩
  · rintro t rfl
    exact ⟨rfl, rfl, statusByte_resetEvent s, rfl, rfl, rfl, rfl, rfl, rfl, rfl⟩
  · rw [step_reset_owed hn]
    split
    · exact .inl rfl
    · exact .inr rfl

end Sys2Proof.Machine
end
